-- ==== Sys2Proof/Word.lean ====
section
/-! DEFINITION. The plainest words of the model: bytes, 16-bit and 32-bit words, the numbers of lines,
contexts, accounts and classes. -/

namespace Sys2Proof

/-- One byte of shared memory or of a record (R168). -/
abbrev Byte := BitVec 8

/-- A 16-bit word: a tag, a ring index (R23), a word of a retained table (R165). -/
abbrev Half := BitVec 16

/-- A 32-bit word: an address on the host bus, a register (R156). -/
abbrev Word := BitVec 32

/-- L0 to L7. -/
abbrev LineId := Fin 8

/-- C0 to C47 (R1). -/
abbrev CtxId := Fin 48

/-- Accounts 0 to 31 (R128). -/
abbrev AccountId := Fin 32

/-- Tariff classes 0 to 14 (R118). -/
abbrev ClassId := Fin 15

end Sys2Proof
end

