-- ==== Sys2Proof/Syntax.lean ====
section
/-! DEFINITION. The commands of the DL8: one constructor of `Instr` for each row of the table of operations
and events. A command that takes a request record carries the record's fields as its bytes hold them (R172). -/

namespace Sys2Proof

/-- The two order rings (R23); also the origin class of a context (R2). -/
inductive OrderRing where
  | urgent
  | routine
deriving DecidableEq, Repr, Inhabited

/-- The host's stores to shared memory, in order: an address and the byte stored there. -/
abbrev HostStores := List (Word × Byte)

/-- Which shared-memory access of a take meets a bus error (R32): none, the read of the record (step 1), or
the write of the consumer index (step 4). -/
inductive TakeBus where
  | ok
  | readError
  | writeError
deriving DecidableEq, Repr

/-- Which access of a post meets a bus error (R148): none, the write of the record (step 1), or the write of
the producer index (step 3). DESIGN CHOICE (log 24): which of the record's 64 bytes stand in the slot after the failed
write is an operand, bit `k` for byte `k`; the spec says nothing of them. -/
inductive PostBus where
  | ok
  | recordError (landed : BitVec 64)
  | indexError
deriving DecidableEq, Repr

/-- The five tables of the retained domain (R165). -/
inductive RetainedTable where
  | prefixes
  | bands
  | accounts
  | policies
  | calendar
deriving DecidableEq, Repr

/-- What a power-on reset cuts as it begins (R163): no access, the write of a report record into its slot (the bytes that
landed before the cut, bit `k` for byte `k`), or a write into a retained table (R41). Which access is in progress, and how
far it has come, is an operand (log 19). -/
inductive PowerCut where
  | nothing
  | record (landed : BitVec 64)
  | table (which : RetainedTable)
deriving DecidableEq, Repr

/-- A crossing of VDD's reset threshold (R163): to which side, and what it cuts. -/
structure VddCrossing where
  above : Bool
  cut : PowerCut
deriving DecidableEq, Repr

/-- Which access of START meets a bus error (R25, R145, R159): none, the read of the setup block, or the read
of a ring header. -/
inductive StartBus where
  | ok
  | setupBlock
  | reportHeader
  | orderHeader (r : OrderRing)
deriving DecidableEq, Repr

/-- A PLACE_CALL record (R172). -/
structure PlaceCallRec where
  flags : Byte
  tag : Half
  account : Byte
  mask : Byte
  policy : Byte
  digitCount : Byte
  answerTimeout : Half
  maxDuration : Half
  digits : Vector Byte 24
deriving DecidableEq, Repr

/-- An ACCEPT record (R172). -/
structure AcceptRec where
  flags : Byte
  tag : Half
  line : Byte
  maxDuration : Half
deriving DecidableEq, Repr

/-- A CANCEL or RELEASE record (R172). -/
structure TargetRec where
  flags : Byte
  tag : Half
  target : Half
deriving DecidableEq, Repr

/-- A SET_LINE record (R172, R34). -/
structure SetLineRec where
  tag : Half
  line : Byte
  enable : Byte
  dialToneRequired : Byte
  qualify : Byte
  seizeTimeout : Half
  answerDefault : Half
  toneTime : Half
  gapTime : Half
  clearGuard : Half
deriving DecidableEq, Repr

/-- A LOAD_PREFIX record (R172, R36). -/
structure LoadPrefixRec where
  tag : Half
  index : Byte
  present : Byte
  length : Byte
  cls : Byte
  symbols : Vector Byte 12
deriving DecidableEq, Repr

/-- A LOAD_BAND record (R172, R37). -/
structure LoadBandRec where
  tag : Half
  cls : Byte
  band : Byte
  present : Byte
  daySet : Byte
  start : Word
  period : Half
  unitCharge : Half
  setupCharge : Half
deriving DecidableEq, Repr

/-- A SET_POLICY record (R172, R38). -/
structure SetPolicyRec where
  tag : Half
  index : Byte
  present : Byte
  limit : Byte
  count : Byte
  outcomes : Byte
  intervals : Vector Half 6
deriving DecidableEq, Repr

/-- An ACCOUNT record as its bytes hold it, before its range checks (R172, R39). -/
structure AccountRec where
  tag : Half
  account : Byte
  op : Byte
  limitedFlag : Byte
  limit : Word
deriving DecidableEq, Repr

/-- A SET_CLOCK record (R172, R40). -/
structure SetClockRec where
  tag : Half
  day : Half
  second : Word
deriving DecidableEq, Repr

/-- The commands. Each constructor is one row of the table of operations and events. -/
inductive Instr where
  -- writes to CONTROL (R157)
  | start (stores : HostStores) (first : OrderRing) (bus : StartBus)
  | quiesce
  | abort
  | reset
  | badCommand (value : Word)
  -- writes to the other registers (R156)
  | orderRingPost (stores : HostStores) (r : OrderRing) (busError : Bool)
  | reportPostBit (stores : HostStores) (busError : Bool)
  | signalAcknowledge
  | setupAddrWrite (value : Word)
  | readOnlyRegisterWrite (value : Word)
  -- resets and supplies (R163), the check of the retained tables (R164)
  | powerOnReset (vdd : VddCrossing)
  | powerOnResetEnd
  | resetnAssert
  | resetnRelease
  | retainedCheckDone
  -- takes of a request record (R32)
  | placeCall (r : OrderRing) (bus : TakeBus) (rec : PlaceCallRec)
  | accept (r : OrderRing) (bus : TakeBus) (rec : AcceptRec)
  | cancel (r : OrderRing) (bus : TakeBus) (rec : TargetRec)
  | release (r : OrderRing) (bus : TakeBus) (rec : TargetRec)
  | setLine (r : OrderRing) (bus : TakeBus) (rec : SetLineRec)
  | loadPrefix (r : OrderRing) (bus : TakeBus) (rec : LoadPrefixRec)
  | loadBand (r : OrderRing) (bus : TakeBus) (rec : LoadBandRec)
  | setPolicy (r : OrderRing) (bus : TakeBus) (rec : SetPolicyRec)
  | accountSetLimit (r : OrderRing) (bus : TakeBus) (tag : Half) (account : AccountId) (limited : Bool) (limit : Word)
  | accountClearTotal (r : OrderRing) (bus : TakeBus) (tag : Half) (account : AccountId)
  | accountSuspend (r : OrderRing) (bus : TakeBus) (tag : Half) (account : AccountId)
  | accountResume (r : OrderRing) (bus : TakeBus) (tag : Half) (account : AccountId)
  | accountRead (r : OrderRing) (bus : TakeBus) (tag : Half) (account : AccountId)
  | accountInvalidOperation (r : OrderRing) (bus : TakeBus) (rec : AccountRec)
  | setClock (r : OrderRing) (bus : TakeBus) (rec : SetClockRec)
  | unknownRequestKind (r : OrderRing) (bus : TakeBus) (kind : Byte) (tag : Half)
  -- line inputs (R59, R60, R83, R92)
  | loopSenseChange (l : LineId) (a b : Bool)
  | loopPatternQualified (l : LineId)
  | toneEnergyChange (l : LineId) (present : Bool)
  | toneEnergyQualified (l : LineId)
  | ringDetectChange (l : LineId) (active : Bool)
  | qualifiedRing (l : LineId)
  | ringLevelQuiet (l : LineId)
  -- line timers (R61 to R76, R95)
  | loopTimerExpiry (l : LineId)
  | dialToneTimerExpiry (l : LineId)
  | digitTimerExpiry (l : LineId)
  | pauseTimerExpiry (l : LineId)
  | answerTimerExpiry (l : LineId)
  | maxDurationTimerExpiry (l : LineId)
  | farClearTimerExpiry (l : LineId)
  | clearGuardTimerExpiry (l : LineId)
  | ringGapTimerExpiry (l : LineId)
  -- the classifier (R85, R89, R90)
  | dialToneMark (l : LineId)
  | offPeriodOverrun (l : LineId)
  | classReport (l : LineId)
  -- the meter, the signal line, the clocks, the report writer
  | unitStart (l : LineId)
  | holdTimerExpiry
  | uptimeTick
  | calendarAdvance
  | reportPost (bus : PostBus)
  | vbatLoss
deriving DecidableEq, Repr

end Sys2Proof
end

