-- ==== Sys2Proof/Machine/Tables.lean ====
section
/-! DEFINITION. What the retained domain holds (R114, R165): the prefix table, the band table, the account
table, the policy table and the calendar, each with its check word. -/

namespace Sys2Proof.Machine

/-- A symbol of a dialled digit string (R2, R172): the twelve tone symbols 0 to 9, * (10) and # (11), the
pause P and the wait W. -/
inductive Symbol where
  | tone (code : Fin 12)
  | pause
  | wait
deriving DecidableEq, Repr

/-- The class of a prefix table entry: 0 to 14 or BARRED (R115). -/
inductive PrefixClass where
  | tariff (c : ClassId)
  | barred
deriving DecidableEq, Repr, Inhabited

/-- A present entry of the prefix table (R115). -/
structure PrefixEntry where
  symbols : List (Fin 12)
  cls : PrefixClass
deriving DecidableEq, Repr, Inhabited

/-- The day set of a band (R118, R119). -/
inductive DaySet where
  | all
  | workdays
  | restdays
deriving DecidableEq, Repr, Inhabited

/-- A present band of the band table (R118). -/
structure Band where
  daySet : DaySet
  start : Nat
  period : Nat
  unitCharge : Nat
  setupCharge : Nat
deriving DecidableEq, Repr, Inhabited

/-- One account (R128). -/
structure Account where
  suspended : Bool
  limited : Bool
  limit : Nat
  total : Nat
  completed : Half
  active : Nat
deriving DecidableEq, Repr, Inhabited

/-- An account of a cleared table (R143). -/
def Account.cleared : Account :=
  { suspended := false, limited := false, limit := 0, total := 0, completed := 0, active := 0 }

/-- A policy: a present entry of the policy table (R102) and the snapshot a context takes of it (R3, R103).
The retry outcome set is held with the bits of R172: 0 BUSY, 1 NO_ANSWER, 2 CONGESTION, 3 NO_DIALTONE,
4 NO_LOOP. -/
structure Policy where
  limit : Nat
  intervals : List Nat
  outcomes : BitVec 5
deriving DecidableEq, Repr, Inhabited

/-- The NONE snapshot: one attempt, no intervals, an empty retry outcome set (R3). -/
def Policy.single : Policy := { limit := 1, intervals := [], outcomes := 0 }

/-- The calendar (R114). The millisecond count stands at 1000 only while an advance is about to be taken. -/
structure Calendar where
  day : Half
  second : Nat
  ms : Nat
  valid : Bool
deriving DecidableEq, Repr, Inhabited

/-- The calendar after a clear (R127). -/
def Calendar.cleared : Calendar := { day := 0, second := 0, ms := 0, valid := false }

/-- The retained domain: five tables, each with its 16-bit check word (R165). -/
structure Retained where
  prefixes : Vector (Option PrefixEntry) 64
  prefixCheck : Half
  bands : Vector (Vector (Option Band) 4) 15
  bandCheck : Half
  accounts : Vector Account 32
  accountCheck : Half
  policies : Vector (Option Policy) 8
  policyCheck : Half
  calendar : Calendar
  calendarCheck : Half
deriving DecidableEq, Repr, Inhabited

end Sys2Proof.Machine
end

