-- ==== Sys2Proof/Config.lean ====
section
/-! DEFINITION. What the part fixes once and for all (the fixed times of R58, R91, R92, R163), and the free
values: what the spec leaves open, held by constants without a body. -/

namespace Sys2Proof.Config

/-- Loop timeout after seizure and in ANSWERING, ms (R58, R61, R97). -/
def loopTimeoutMs : Nat := 2000

/-- The pause of a P symbol, ms (R58, R65). -/
def pauseMs : Nat := 2000

/-- The wait of a W symbol, ms (R58, R66). -/
def waitMs : Nat := 10000

/-- Far-clear and loop-loss confirm, ms (R58, R72). -/
def farClearMs : Nat := 400

/-- Qualification time of ring detect, ms (R92). -/
def ringQualifyMs : Nat := 200

/-- Ring gap, ms (R91, R95). -/
def ringGapMs : Nat := 8000

/-- How long VDD must stay above its threshold for a power-on reset to end, ms (R163). -/
def powerStableMs : Nat := 20

/-- The dial-tone mark: an ON period this long is dial tone, ms (R85). -/
def dialToneMs : Nat := 1000

/-- An OFF period this long overruns the cadence windows, ms (R89). -/
def offOverrunMs : Nat := 5001

/-- Greatest elapsed time a classifier holds, ms (R80). -/
def maxPeriodMs : Nat := 65535

/-- Greatest value of a 32-bit counter: uptime (R104), connected ms and call charge (R6), totals (R128). -/
def max32 : Nat := 4294967295

/-- Greatest value of a 16-bit counter: units charged (R6), unit number (R129). -/
def max16 : Nat := 65535

/-- Greatest value of an 8-bit counter: drop count (R6), missed and unsignalled counts (R144). -/
def max8 : Nat := 255

/-- Done slots, progress places and unsolicited places of the outbox (R146). -/
def quota : Nat := 8

/-- FREE VALUE (logs 14, 19). What the retained memory holds after both supplies were lost (R163), and what one table and
its check word hold after a write into it was cut (R41): the spec says only that the check judges it. The argument is the
count of free values drawn so far. -/
opaque lostRetained : Nat → Machine.Retained

/-- FREE VALUE (log 9). Which of several happenings that fall together is taken first on an empty queue (R53,
R54, R75, R101, R111, R122, R135, R137). The argument is the count of free values drawn so far. -/
opaque orderChoice : Nat → Nat

/-- FREE VALUE (log 26). The interval, s, taken from an empty interval list: R106 gives none, and only a damaged policy table
that passes its check (R165) has one. The argument is the attempt count. -/
opaque unstatedInterval : Nat → Nat

end Sys2Proof.Config
end

