-- ==== Sys2Proof/Machine/State.lean ====
section
/-! DEFINITION. The state of the DL8, as plain data, and its value right after a reset. -/

namespace Sys2Proof.Machine

/-! ## Faults and refusals -/

/-- A fault of the MACHINE would stop a run. The spec gives none: a bus error or a malformed report index takes
the engine to HALTED (R166), which is a state, and a line fault (R77) or ring fault (R27) is a state of that line
or ring. So no command raises one; safe. -/
inductive Fault
deriving DecidableEq, Repr

/-- Why a command has no meaning. -/
inductive Refusal where
  /-- Raised by an arm of `exec` whose command has no meaning yet; safe. No arm of this model raises it. -/
  | notModelled (mnemonic : String)
deriving DecidableEq, Repr

/-! ## Control (chapter 11) -/

/-- Engine states (R156, R158). -/
inductive EngineState where
  | checking
  | ready
  | running
  | draining
  | aborting
  | halted
deriving DecidableEq, Repr

/-- Error codes (R156, R157). -/
inductive ErrorCode where
  | none
  | wrongState
  | badCommand
  | badSetup
  | memoryFault
  | badReportIndex
deriving DecidableEq, Repr

/-- Reset causes (R163). -/
inductive ResetCause where
  | power
  | pin
  | soft
deriving DecidableEq, Repr

/-- The setup parameters (R159). A class of `none` is NONE. -/
structure Setup where
  urgentBase : Word
  routineBase : Word
  reportBase : Word
  urgentHeader : Word
  routineHeader : Word
  reportHeader : Word
  urgentSize : Nat
  routineSize : Nat
  reportSize : Nat
  holdTime : Nat
  batch : Nat
  defaultClass : Option ClassId
  qualify : Nat
deriving DecidableEq, Repr

/-- Setup parameters as if no START had been taken (R164). -/
def Setup.initial : Setup :=
  { urgentBase := 0, routineBase := 0, reportBase := 0, urgentHeader := 0, routineHeader := 0,
    reportHeader := 0, urgentSize := 0, routineSize := 0, reportSize := 0, holdTime := 0, batch := 1,
    defaultClass := none, qualify := 32 }

/-- The status of each retained table; true is CLEARED, false is VALID (R156, R165). -/
structure TableStatus where
  prefixes : Bool
  bands : Bool
  accounts : Bool
  policies : Bool
  calendar : Bool
deriving DecidableEq, Repr

/-- Every table VALID (R156). -/
def TableStatus.allValid : TableStatus :=
  { prefixes := false, bands := false, accounts := false, policies := false, calendar := false }

/-- The control block (R156). -/
structure Control where
  engine : EngineState
  error : ErrorCode
  urgentFault : Bool
  routineFault : Bool
  setup : Setup
  status : TableStatus
  cause : ResetCause
  setupAddr : Word
deriving DecidableEq, Repr

/-- The control block after a reset whose cause is given (R164). -/
def Control.atReset (cause : ResetCause) : Control :=
  { engine := .checking, error := .none, urgentFault := false, routineFault := false, setup := Setup.initial,
    status := TableStatus.allValid, cause := cause, setupAddr := 0 }

/-- The resets in force, the main supply and the battery (R163). -/
structure Power where
  powerReset : Bool
  resetnLow : Bool
  vddAbove : Bool
  vbatPresent : Bool
  stableLeft : Option Nat
  roseSinceReady : Bool
deriving DecidableEq, Repr

/-! ## Order rings and intake (chapter 2) -/

/-- The resource a request record needs (R30), and the reason a ring is HELD (R29). -/
inductive Need where
  | context
  | doneSlot
deriving DecidableEq, Repr

/-- Ring states (R23, R28); the held reason is present only in HELD. -/
inductive RingState where
  | empty
  | active
  | held (reason : Need)
  | faulted
deriving DecidableEq, Repr

/-- What intake keeps of one order ring (R23). -/
structure Ring where
  base : Word
  size : Nat
  header : Word
  cachedProducer : Half
  consumer : Half
  state : RingState
deriving DecidableEq, Repr

/-- An order ring after a reset (R23). -/
def Ring.initial : Ring :=
  { base := 0, size := 0, header := 0, cachedProducer := 0, consumer := 0, state := .empty }

/-- Request intake (R23). -/
structure Intake where
  urgent : Ring
  routine : Ring
  streak : Nat
deriving DecidableEq, Repr

/-- Intake after a reset (R23). -/
def Intake.initial : Intake := { urgent := Ring.initial, routine := Ring.initial, streak := 0 }

/-! ## Call contexts (chapter 1) -/

/-- Context states (R1). -/
inductive CtxState where
  | free
  | pending
  | retryWait
  | onLine
  | ended
deriving DecidableEq, Repr

/-- Direction of a call (R2). -/
inductive Direction where
  | outbound
  | inbound
deriving DecidableEq, Repr

/-- The 21 outcomes (R17), in the order of their codes (R173). -/
inductive CallOutcome where
  | completedNear
  | completedFar
  | busy
  | noAnswer
  | congestion
  | noDialtone
  | noLoop
  | lineLost
  | lineFault
  | barred
  | noTariff
  | noLine
  | badRequest
  | duplicateTag
  | notRinging
  | limitReached
  | accountSuspended
  | durationLimit
  | cancelled
  | withdrawn
  | aborted
deriving DecidableEq, Repr

/-- A calendar stamp: day number and second of day (R6, R124). -/
structure Stamp where
  day : Half
  second : Nat
deriving DecidableEq, Repr

/-- A CALL_END record, by its fields (R20). -/
structure CallEnd where
  tag : Half
  outcome : CallOutcome
  direction : Direction
  origin : OrderRing
  line : Option LineId
  attempts : Nat
  account : Option AccountId
  tariff : Option ClassId
  stamp : Option Stamp
  connectedSeconds : Nat
  units : Nat
  charge : Nat
  drops : Nat
deriving DecidableEq, Repr

/-- One entry of the call context table (R2 to R6). `digits` is absent (`none`) for ACCEPT and where the
record's counted digits are no digit string; `record` is the CALL_END kept by the ending step (R11). -/
structure Context where
  state : CtxState
  tag : Half
  direction : Direction
  origin : OrderRing
  account : Option AccountId
  tariff : Option ClassId
  mask : BitVec 8
  signalNow : Bool
  progress : Bool
  answerTimeout : Nat
  maxDuration : Nat
  digits : Option (List Symbol)
  snapshot : Policy
  attempts : Nat
  lastLine : Option LineId
  prevLine : Option LineId
  currentLine : Option LineId
  due : Option Nat
  lastOutcome : Option CallOutcome
  stamp : Option Stamp
  connectedMs : Nat
  units : Nat
  charge : Nat
  drops : Nat
  finalOutcome : Option CallOutcome
  record : Option CallEnd
deriving DecidableEq, Repr

/-- A FREE context: the cleared values of R22. -/
def Context.cleared : Context :=
  { state := .free, tag := 0, direction := .outbound, origin := .routine, account := none, tariff := none,
    mask := 0, signalNow := false, progress := false, answerTimeout := 0, maxDuration := 0, digits := none,
    snapshot := Policy.single, attempts := 0, lastLine := none, prevLine := none, currentLine := none, due := none,
    lastOutcome := none, stamp := none, connectedMs := 0, units := 0, charge := 0, drops := 0,
    finalOutcome := none, record := none }

/-! ## Lines (chapters 4, 5, 6) -/

/-- Line states (R56). -/
inductive LineState where
  | disabled
  | idle
  | fault
  | seize
  | dialing
  | awaitAnswer
  | connected
  | ringing
  | answering
  | connectedIn
  | clearing
deriving DecidableEq, Repr

/-- The SET_LINE parameters (R34, R58): ms, but for the two timeouts in seconds. -/
structure LineParams where
  qualify : Nat
  seizeTimeout : Nat
  answerDefault : Nat
  toneTime : Nat
  gapTime : Nat
  dialToneRequired : Bool
  clearGuard : Nat
deriving DecidableEq, Repr

/-- The defaults of R58. -/
def LineParams.default : LineParams :=
  { qualify := 32, seizeTimeout := 5, answerDefault := 40, toneTime := 80, gapTime := 80,
    dialToneRequired := true, clearGuard := 1000 }

/-- Loop patterns (R60). -/
inductive LoopPattern where
  | noLoop
  | normal
  | reversed
  | invalid
deriving DecidableEq, Repr

/-- Classes of the call-progress classifier (R80). -/
inductive ToneClass where
  | unknown
  | dial
  | ringback
  | busy
  | congestion
deriving DecidableEq, Repr

/-- The kind of a run of short cycles (R80, R87). -/
inductive MatchKind where
  | busy
  | congestion
deriving DecidableEq, Repr

/-- The call-progress classifier of a line (R80). `periodOn` tells an ON from an OFF period, `whole` the mark
WHOLE from PARTIAL. -/
structure Classifier where
  enabled : Bool
  cls : ToneClass
  level : Bool
  periodOn : Bool
  elapsed : Nat
  whole : Bool
  cycleOn : Option Nat
  matchCount : Nat
  matchKind : Option MatchKind
deriving DecidableEq, Repr

/-- A disabled classifier (R80, R82). -/
def Classifier.disabled : Classifier :=
  { enabled := false, cls := .unknown, level := false, periodOn := false, elapsed := 0, whole := false,
    cycleOn := none, matchCount := 0, matchKind := none }

/-- A classifier report on its way to the line controller (R90): the new class, and whether the classifier has
been disabled since the report was made. -/
structure ClassReport where
  cls : ToneClass
  stale : Bool
deriving DecidableEq, Repr

/-- One line: its controller, classifier and ring monitor (R56, R80, R91), its raw inputs and its digit-tone
drive. A timer holds the milliseconds it still has to run. -/
structure Line where
  state : LineState
  dialToneWait : Bool
  stored : LineParams
  working : LineParams
  senseA : Bool
  senseB : Bool
  toneRaw : Bool
  ringRaw : Bool
  loopPattern : LoopPattern
  tonePresent : Bool
  loopQual : Option Nat
  toneQual : Option Nat
  held : Option CtxId
  digitPos : Option Nat
  drive : Option (Fin 12)
  loopTimer : Option Nat
  dialToneTimer : Option Nat
  digitTimer : Option Nat
  pauseTimer : Option Nat
  answerTimer : Option Nat
  maxDurationTimer : Option Nat
  farClearTimer : Option Nat
  clearGuard : Option Nat
  disablePending : Bool
  ringLevel : Bool
  ringQual : Option Nat
  ringGap : Option Nat
  announced : Bool
  classifier : Classifier
  reports : List ClassReport
  msTimer : Nat
deriving DecidableEq, Repr

/-- A line after a reset (R56, R80, R91) whose four inputs stand as given. -/
def Line.atReset (senseA senseB toneRaw ringRaw : Bool) : Line :=
  { state := .idle, dialToneWait := false, stored := LineParams.default, working := LineParams.default,
    senseA := senseA, senseB := senseB, toneRaw := toneRaw, ringRaw := ringRaw, loopPattern := .noLoop,
    tonePresent := false, loopQual := none, toneQual := none, held := none, digitPos := none, drive := none,
    loopTimer := none, dialToneTimer := none, digitTimer := none, pauseTimer := none, answerTimer := none,
    maxDurationTimer := none, farClearTimer := none, clearGuard := none, disablePending := false,
    ringLevel := false, ringQual := none, ringGap := none, announced := false,
    classifier := Classifier.disabled, reports := [], msTimer := 0 }

/-! ## The waiting list and the meter (chapters 3 and 9) -/

/-- The waiting list, in its two parts; the URGENT part stands wholly ahead (R43). -/
structure Waiting where
  urgent : List CtxId
  routine : List CtxId
deriving DecidableEq, Repr

/-- An open metering entry (R129). `nextStart` lies on the line's millisecond timer. -/
structure MeterEntry where
  ctx : CtxId
  account : AccountId
  tariff : Option ClassId
  unitNumber : Nat
  unitPeriod : Nat
  unitCharge : Nat
  nextStart : Nat
  warned : Bool
deriving DecidableEq, Repr

/-! ## The report writer (chapter 10) -/

/-- Statuses of a REQUEST_DONE (R33). -/
inductive DoneStatus where
  | done
  | badRequest
  | noSuchTag
  | tooLate
  | notConnected
deriving DecidableEq, Repr

/-- A REQUEST_DONE record, by its fields (R33); `data` is an ACCOUNT READ's account number and copy. -/
structure DoneRecord where
  tag : Half
  kind : Byte
  status : DoneStatus
  data : Option (AccountId × Account)
deriving DecidableEq, Repr

/-- What a PROGRESS report tells (R150). -/
inductive ProgressKind where
  | attemptStart
  | ringing
  | answered
  | attemptFailed (failure : CallOutcome) (interval : Nat)
  | limitWarning (room : Nat)
deriving DecidableEq, Repr

/-- A PROGRESS record, by its fields (R150). -/
structure ProgressRecord where
  tag : Half
  kind : ProgressKind
  line : LineId
  attempts : Nat
deriving DecidableEq, Repr

/-- What an UNSOLICITED report tells (R151). -/
inductive UnsolicitedKind where
  | started (cause : ResetCause) (status : TableStatus) (calendarValid : Bool)
  | ringIn (l : LineId)
  | ringGone (l : LineId)
  | lineFault (l : LineId)
  | ringFault (r : OrderRing)
deriving DecidableEq, Repr

/-- An UNSOLICITED record, by its fields but for the missed count, which is settled at posting (R151). -/
structure UnsolicitedRecord where
  kind : UnsolicitedKind
  stamp : Stamp
deriving DecidableEq, Repr

/-- What an outbox entry holds (R146). -/
inductive EntryBody where
  | callEnd (c : CtxId)
  | done (rec : DoneRecord)
  | progress (rec : ProgressRecord)
  | unsolicited (rec : UnsolicitedRecord)
deriving DecidableEq, Repr

/-- An outbox entry with its urgent mark (R146, R152). -/
structure OutboxEntry where
  body : EntryBody
  urgent : Bool
deriving DecidableEq, Repr

/-- The hold timer (R144); RUNNING holds the milliseconds left. -/
inductive HoldTimer where
  | stopped
  | running (left : Nat)
  | expired
deriving DecidableEq, Repr

/-- The report writer (R144). -/
structure ReportWriter where
  adopted : Bool
  base : Word
  size : Nat
  header : Word
  producer : Half
  cachedConsumer : Half
  outbox : List OutboxEntry
  missed : Nat
  holdTime : Nat
  batch : Nat
  sigPending : Bool
  holdTimer : HoldTimer
  unsignalled : Nat
deriving DecidableEq, Repr

/-- The report writer after a reset (R144). -/
def ReportWriter.initial : ReportWriter :=
  { adopted := false, base := 0, size := 0, header := 0, producer := 0, cachedConsumer := 0, outbox := [],
    missed := 0, holdTime := 0, batch := 1, sigPending := false, holdTimer := .stopped, unsignalled := 0 }

/-! ## The whole state -/

/-- The state of the DL8, the shared memory it works on, and the model's queue of waiting commands. -/
structure State where
  ctl : Control
  power : Power
  intake : Intake
  ctxs : Vector Context 48
  waiting : Waiting
  freeLines : List LineId
  lines : Vector Line 8
  schedule : List CtxId
  uptime : Nat
  uptimeMs : Nat
  retained : Retained
  meters : Vector (Option MeterEntry) 8
  report : ReportWriter
  mem : List Host.Cell
  /-- the model's own field: how many free values have been drawn (log 9) -/
  seed : Nat
  /-- the model's own field: the commands waiting, first in, first out -/
  pending : List Instr
deriving DecidableEq, Repr

/-- Every table empty, every account cleared, the calendar cleared and not valid: the content that R102, R127 and
R143 call empty. DESIGN CHOICE (log 2): taken as the content at the first power-on. Its check words agree with it
under the packing of Machine/Check.lean, where it is a run of zero words. -/
def Retained.empty : Retained :=
  { prefixes := Vector.replicate 64 none, prefixCheck := 0,
    bands := Vector.replicate 15 (Vector.replicate 4 none), bandCheck := 0,
    accounts := Vector.replicate 32 Account.cleared, accountCheck := 0,
    policies := Vector.replicate 8 none, policyCheck := 0,
    calendar := Calendar.cleared, calendarCheck := 0 }

/-- L0 to L7, in number order (R46). -/
def allLines : List LineId := [0, 1, 2, 3, 4, 5, 6, 7]

/-- The machine right after a power-on reset has ended: every field at the value its rule gives (R22, R23, R43,
R46, R56, R80, R91, R104, R108, R129, R144, R156, R164). -/
def State.reset : State :=
  { ctl := Control.atReset .power,
    power := { powerReset := false, resetnLow := false, vddAbove := true, vbatPresent := true, stableLeft := none,
               roseSinceReady := true },
    intake := Intake.initial,
    ctxs := Vector.replicate 48 Context.cleared,
    waiting := { urgent := [], routine := [] },
    freeLines := allLines,
    lines := Vector.replicate 8 (Line.atReset false false false false),
    schedule := [],
    uptime := 0,
    uptimeMs := 0,
    retained := Retained.empty,
    meters := Vector.replicate 8 none,
    report := ReportWriter.initial,
    mem := [],
    seed := 0,
    pending := [] }

end Sys2Proof.Machine
end

