-- ==== Sys2Proof/Machine/Check.lean ====
section
/-! DEFINITION. The check words of the retained tables (R41, R165): each table as a run of 16-bit words whose sum
with the check word is zero mod 65536. DESIGN CHOICE (log 7): the spec does not say how a table is packed into
words; here every field is one word (two for a 32-bit field), an absent entry a run of zeros. -/

namespace Sys2Proof.Machine

/-- The 16-bit sum of a run of words. -/
def sumWords : List Half → Half
  | [] => 0
  | w :: ws => w + sumWords ws

/-- The low word of a number. -/
def lowWord (n : Nat) : Half := BitVec.ofNat 16 n

/-- The second word of a number. -/
def highWord (n : Nat) : Half := BitVec.ofNat 16 (n / 65536)

/-- A flag as a word. -/
def flagWord (b : Bool) : Half := if b then 1 else 0

/-- A prefix table entry as words. -/
def prefixWords : Option PrefixEntry → List Half
  | none => [0]
  | some e =>
    [1, lowWord e.symbols.length, match e.cls with | .tariff c => lowWord c | .barred => 15]
      ++ e.symbols.map fun d => lowWord d

/-- A band as words. -/
def bandWords : Option Band → List Half
  | none => [0]
  | some b =>
    [1, match b.daySet with | .all => 0 | .workdays => 1 | .restdays => 2, lowWord b.start, highWord b.start,
     lowWord b.period, lowWord b.unitCharge, lowWord b.setupCharge]

/-- An account as words. -/
def accountWords (a : Account) : List Half :=
  [flagWord a.suspended, flagWord a.limited, lowWord a.limit, highWord a.limit, lowWord a.total, highWord a.total,
   a.completed, lowWord a.active]

/-- A policy table entry as words. -/
def policyWords : Option Policy → List Half
  | none => [0]
  | some p =>
    [1, lowWord p.limit, lowWord p.intervals.length, lowWord p.outcomes.toNat] ++ p.intervals.map lowWord

/-- The calendar as words: day, second and validity (R114). The millisecond count is not among them, since the
check word is rewritten at each advance of a second (R123) and not at each millisecond (log 7). -/
def calendarWords (c : Calendar) : List Half := [c.day, lowWord c.second, highWord c.second, flagWord c.valid]

/-- The prefix table as words. -/
def prefixTableWords (t : Vector (Option PrefixEntry) 64) : List Half := t.toList.flatMap prefixWords

/-- The band table as words. -/
def bandTableWords (t : Vector (Vector (Option Band) 4) 15) : List Half :=
  t.toList.flatMap fun bands => bands.toList.flatMap bandWords

/-- The account table as words. -/
def accountTableWords (t : Vector Account 32) : List Half := t.toList.flatMap accountWords

/-- The policy table as words. -/
def policyTableWords (t : Vector (Option Policy) 8) : List Half := t.toList.flatMap policyWords

/-- The check word that agrees with a run of words (R165). -/
def checkOf (words : List Half) : Half := -(sumWords words)

/-- A table is sound when the sum of its words and its check word is zero mod 65536 (R165). -/
def isSound (words : List Half) (check : Half) : Bool := decide (sumWords words + check = 0)

/-- The prefix table replaced, its check word rewritten with it (R41). -/
def Retained.setPrefixes (t : Retained) (v : Vector (Option PrefixEntry) 64) : Retained :=
  { t with prefixes := v, prefixCheck := checkOf (prefixTableWords v) }

/-- The band table replaced, its check word rewritten with it (R41). -/
def Retained.setBands (t : Retained) (v : Vector (Vector (Option Band) 4) 15) : Retained :=
  { t with bands := v, bandCheck := checkOf (bandTableWords v) }

/-- The account table replaced, its check word rewritten with it (R41, R128). -/
def Retained.setAccounts (t : Retained) (v : Vector Account 32) : Retained :=
  { t with accounts := v, accountCheck := checkOf (accountTableWords v) }

/-- The policy table replaced, its check word rewritten with it (R41). -/
def Retained.setPolicies (t : Retained) (v : Vector (Option Policy) 8) : Retained :=
  { t with policies := v, policyCheck := checkOf (policyTableWords v) }

/-- The calendar replaced, its check word rewritten with it (R41, R123). -/
def Retained.setCalendar (t : Retained) (c : Calendar) : Retained :=
  { t with calendar := c, calendarCheck := checkOf (calendarWords c) }

/-- The calendar moved on to `c`, its check word moved on with it (R123): a sum that was zero stays zero (R41). DESIGN CHOICE
(log 27): a sum that was not, after a loss of the retained content, stays as it was, so that the check still judges what the
memory holds (R163). -/
def Retained.moveCalendar (t : Retained) (c : Calendar) : Retained :=
  { t with
    calendar := c
    calendarCheck := t.calendarCheck + sumWords (calendarWords t.calendar) - sumWords (calendarWords c) }

/-- What one table and its check word hold after a write into it was cut (R41, log 19), taken from `lost`; every other table
as it was. -/
def Retained.cutTable (t lost : Retained) : RetainedTable → Retained
  | .prefixes => { t with prefixes := lost.prefixes, prefixCheck := lost.prefixCheck }
  | .bands => { t with bands := lost.bands, bandCheck := lost.bandCheck }
  | .accounts => { t with accounts := lost.accounts, accountCheck := lost.accountCheck }
  | .policies => { t with policies := lost.policies, policyCheck := lost.policyCheck }
  | .calendar => { t with calendar := lost.calendar, calendarCheck := lost.calendarCheck }

/-- The check of the prefix table (R127, R165): a sound table is kept, another is cleared. True is CLEARED. -/
def Retained.checkPrefixes (t : Retained) : Retained × Bool :=
  if isSound (prefixTableWords t.prefixes) t.prefixCheck then (t, false)
  else (t.setPrefixes (Vector.replicate 64 none), true)

/-- The check of the band table (R127, R165). -/
def Retained.checkBands (t : Retained) : Retained × Bool :=
  if isSound (bandTableWords t.bands) t.bandCheck then (t, false)
  else (t.setBands (Vector.replicate 15 (Vector.replicate 4 none)), true)

/-- The check of the account table (R143, R165). -/
def Retained.checkAccounts (t : Retained) : Retained × Bool :=
  if isSound (accountTableWords t.accounts) t.accountCheck then (t, false)
  else (t.setAccounts (Vector.replicate 32 Account.cleared), true)

/-- The check of the policy table (R102, R165). -/
def Retained.checkPolicies (t : Retained) : Retained × Bool :=
  if isSound (policyTableWords t.policies) t.policyCheck then (t, false)
  else (t.setPolicies (Vector.replicate 8 none), true)

/-- The check of the calendar (R127, R165). -/
def Retained.checkCalendar (t : Retained) : Retained × Bool :=
  if isSound (calendarWords t.calendar) t.calendarCheck then (t, false)
  else (t.setCalendar Calendar.cleared, true)

/-- Every active call count set to 0 and the check word rewritten (R142, R164). -/
def Retained.clearActive (t : Retained) : Retained :=
  t.setAccounts (t.accounts.map fun a => { a with active := 0 })

/-- The checks of the five tables, the active counts set after them, and the five statuses (R164). -/
def Retained.checked (t : Retained) : Retained × TableStatus :=
  let (t1, p) := t.checkPrefixes
  let (t2, b) := t1.checkBands
  let (t3, a) := t2.checkAccounts
  let (t4, y) := t3.checkPolicies
  let (t5, c) := t4.checkCalendar
  (t5.clearActive, { prefixes := p, bands := b, accounts := a, policies := y, calendar := c })

end Sys2Proof.Machine
end

