-- ==== Sys2Proof/WellFormed.lean ====
section
/-! DEFINITION. Which commands are well formed: the row a command stands for fixes part of its operands. -/

namespace Sys2Proof

/-- The ten kinds of request record that R172 assigns. -/
def knownKinds : List Byte := [0x01, 0x02, 0x03, 0x04, 0x10, 0x11, 0x12, 0x13, 0x14, 0x15]

/-- A CONTROL value with RESET clear that names no command or more than one (R157, bits by R170). -/
def isBadCommand (value : Word) : Bool :=
  let start := value.getLsbD 0
  let quiesce := value.getLsbD 1
  let abort := value.getLsbD 2
  !value.getLsbD 3 && !(start && !quiesce && !abort) && !(!start && quiesce && !abort)
    && !(!start && !quiesce && abort)

/-- An ACCOUNT record that R39 answers BAD_REQUEST: account outside 0 to 31, operation outside 1 to 5, or a
SET_LIMIT whose limited flag is neither 0 nor 1. -/
def AccountRec.isInvalid (rec : AccountRec) : Bool :=
  decide (32 ≤ rec.account.toNat) || decide (rec.op.toNat < 1) || decide (5 < rec.op.toNat)
    || (decide (rec.op.toNat = 1) && decide (1 < rec.limitedFlag.toNat))

/-- A command is well formed when its operands are those of its row. -/
def Instr.wellFormed : Instr → Bool
  | .badCommand value => isBadCommand value
  | .accountInvalidOperation _ _ rec => rec.isInvalid
  | .unknownRequestKind _ _ kind _ => !knownKinds.contains kind
  | _ => true

end Sys2Proof
end

