-- ==== Sys2Proof/Decode.lean ====
section
/-! DEFINITION. The byte layouts of what the host writes: request records (R168, R172), the setup block and ring
headers (R171), the bits of CONTROL and POST (R170). The table of operations and events gives no row any bits,
so `decodeTableWord` spells no command. -/

namespace Sys2Proof

/-- The table gives no row bits: a word spells no command. -/
def decodeTableWord (_nbits _w : Nat) : Option Instr := none

/-! ## Little-endian fields (R168) -/

/-- A two-byte field from its bytes, lowest offset first. -/
def half (b0 b1 : Byte) : Half := b1 ++ b0

/-- A four-byte field from its bytes, lowest offset first. -/
def word (b0 b1 b2 b3 : Byte) : Word := b3 ++ b2 ++ b1 ++ b0

/-- The two bytes of a field, lowest offset first. -/
def halfBytes (h : Half) : List Byte := [h.extractLsb' 0 8, h.extractLsb' 8 8]

/-- The four bytes of a field, lowest offset first. -/
def wordBytes (w : Word) : List Byte :=
  [w.extractLsb' 0 8, w.extractLsb' 8 8, w.extractLsb' 16 8, w.extractLsb' 24 8]

/-- A run of bytes placed at an offset: pairs of an offset and a byte. -/
def cellsAt (off : Nat) : List Byte → List (Nat × Byte)
  | [] => []
  | b :: bs => (off, b) :: cellsAt (off + 1) bs

/-- What a reader of bytes finds where `cells` overlay `under`. -/
def overlay (cells : List (Nat × Byte)) (under : Nat → Byte) (k : Nat) : Byte :=
  match cells with
  | [] => under k
  | (a, b) :: rest => if a = k then b else overlay rest under k

/-- The two-byte field at an offset of what is read. -/
def halfAt (rd : Nat → Byte) (off : Nat) : Half := half (rd off) (rd (off + 1))

/-- The four-byte field at an offset of what is read. -/
def wordAt (rd : Nat → Byte) (off : Nat) : Word :=
  word (rd off) (rd (off + 1)) (rd (off + 2)) (rd (off + 3))

/-! ## Request records (R172): the bytes each kind assigns, at their offsets -/

/-- The bytes of a PLACE_CALL record. -/
def PlaceCallRec.cells (rec : PlaceCallRec) : List (Nat × Byte) :=
  cellsAt 0 ([0x01, rec.flags] ++ halfBytes rec.tag
    ++ [rec.account, rec.mask, rec.policy, rec.digitCount]
    ++ halfBytes rec.answerTimeout ++ halfBytes rec.maxDuration ++ rec.digits.toList)

/-- The bytes of an ACCEPT record. -/
def AcceptRec.cells (rec : AcceptRec) : List (Nat × Byte) :=
  cellsAt 0 ([0x02, rec.flags] ++ halfBytes rec.tag ++ [rec.line]) ++ cellsAt 6 (halfBytes rec.maxDuration)

/-- The bytes of a CANCEL (03h) or RELEASE (04h) record. -/
def TargetRec.cells (kind : Byte) (rec : TargetRec) : List (Nat × Byte) :=
  cellsAt 0 ([kind, rec.flags] ++ halfBytes rec.tag ++ halfBytes rec.target)

/-- The kind and tag of a record whose kind assigns no flags (R172). -/
def headCells (kind : Byte) (tag : Half) : List (Nat × Byte) :=
  cellsAt 0 [kind] ++ cellsAt 2 (halfBytes tag)

/-- The bytes of a SET_LINE record. -/
def SetLineRec.cells (rec : SetLineRec) : List (Nat × Byte) :=
  headCells 0x10 rec.tag
    ++ cellsAt 4 ([rec.line, rec.enable, rec.dialToneRequired, rec.qualify] ++ halfBytes rec.seizeTimeout
      ++ halfBytes rec.answerDefault ++ halfBytes rec.toneTime ++ halfBytes rec.gapTime
      ++ halfBytes rec.clearGuard)

/-- The bytes of a LOAD_PREFIX record. -/
def LoadPrefixRec.cells (rec : LoadPrefixRec) : List (Nat × Byte) :=
  headCells 0x11 rec.tag
    ++ cellsAt 4 ([rec.index, rec.present, rec.length, rec.cls] ++ rec.symbols.toList)

/-- The bytes of a LOAD_BAND record. -/
def LoadBandRec.cells (rec : LoadBandRec) : List (Nat × Byte) :=
  headCells 0x12 rec.tag
    ++ cellsAt 4 ([rec.cls, rec.band, rec.present, rec.daySet] ++ wordBytes rec.start ++ halfBytes rec.period
      ++ halfBytes rec.unitCharge ++ halfBytes rec.setupCharge)

/-- The bytes of a SET_POLICY record. -/
def SetPolicyRec.cells (rec : SetPolicyRec) : List (Nat × Byte) :=
  headCells 0x13 rec.tag
    ++ cellsAt 4 [rec.index, rec.present, rec.limit, rec.count, rec.outcomes]
    ++ cellsAt 10 (rec.intervals.toList.flatMap halfBytes)

/-- The bytes of an ACCOUNT record that assigns a limited flag and a limit. -/
def AccountRec.cells (rec : AccountRec) : List (Nat × Byte) :=
  headCells 0x14 rec.tag ++ cellsAt 4 [rec.account, rec.op, rec.limitedFlag] ++ cellsAt 8 (wordBytes rec.limit)

/-- The bytes of an ACCOUNT record of an operation that leaves the limited flag and limit unread (R169). -/
def accountCells (op : Byte) (tag : Half) (account : AccountId) : List (Nat × Byte) :=
  headCells 0x14 tag ++ cellsAt 4 [BitVec.ofNat 8 account, op]

/-- The bytes of an ACCOUNT SET_LIMIT record. -/
def setLimitCells (tag : Half) (account : AccountId) (limited : Bool) (limit : Word) : List (Nat × Byte) :=
  AccountRec.cells { tag := tag, account := BitVec.ofNat 8 account, op := 1,
                     limitedFlag := if limited then 1 else 0, limit := limit }

/-- The bytes of a SET_CLOCK record. -/
def SetClockRec.cells (rec : SetClockRec) : List (Nat × Byte) :=
  headCells 0x15 rec.tag ++ cellsAt 4 (halfBytes rec.day) ++ cellsAt 8 (wordBytes rec.second)

/-- The ring and the bus of a take command, and the bytes its record assigns; absent for a command that takes no
record. -/
def Instr.take : Instr → Option (OrderRing × TakeBus × List (Nat × Byte))
  | .placeCall r bus rec => some (r, bus, rec.cells)
  | .accept r bus rec => some (r, bus, rec.cells)
  | .cancel r bus rec => some (r, bus, rec.cells 0x03)
  | .release r bus rec => some (r, bus, rec.cells 0x04)
  | .setLine r bus rec => some (r, bus, rec.cells)
  | .loadPrefix r bus rec => some (r, bus, rec.cells)
  | .loadBand r bus rec => some (r, bus, rec.cells)
  | .setPolicy r bus rec => some (r, bus, rec.cells)
  | .accountSetLimit r bus tag account limited limit => some (r, bus, setLimitCells tag account limited limit)
  | .accountClearTotal r bus tag account => some (r, bus, accountCells 2 tag account)
  | .accountSuspend r bus tag account => some (r, bus, accountCells 3 tag account)
  | .accountResume r bus tag account => some (r, bus, accountCells 4 tag account)
  | .accountRead r bus tag account => some (r, bus, accountCells 5 tag account)
  | .accountInvalidOperation r bus rec => some (r, bus, rec.cells)
  | .setClock r bus rec => some (r, bus, rec.cells)
  | .unknownRequestKind r bus kind tag => some (r, bus, headCells kind tag)
  | .start .. | .quiesce | .abort | .reset | .badCommand .. | .orderRingPost .. | .reportPostBit ..
  | .signalAcknowledge | .setupAddrWrite .. | .readOnlyRegisterWrite .. | .powerOnReset .. | .powerOnResetEnd
  | .resetnAssert | .resetnRelease | .retainedCheckDone | .loopSenseChange .. | .loopPatternQualified ..
  | .toneEnergyChange .. | .toneEnergyQualified .. | .ringDetectChange .. | .qualifiedRing ..
  | .ringLevelQuiet .. | .loopTimerExpiry .. | .dialToneTimerExpiry .. | .digitTimerExpiry ..
  | .pauseTimerExpiry .. | .answerTimerExpiry .. | .maxDurationTimerExpiry .. | .farClearTimerExpiry ..
  | .clearGuardTimerExpiry .. | .ringGapTimerExpiry .. | .dialToneMark .. | .offPeriodOverrun ..
  | .classReport .. | .unitStart .. | .holdTimerExpiry | .uptimeTick | .calendarAdvance | .reportPost ..
  | .vbatLoss => none

/-! ## Reading a request record -/

/-- The take command for an ACCOUNT record (R39): a valid operation by its own row, any other invalid. -/
def decodeAccount (r : OrderRing) (bus : TakeBus) (rec : AccountRec) : Instr :=
  if h : rec.account.toNat < 32 then
    let account : AccountId := ⟨rec.account.toNat, h⟩
    if rec.op = 1 then
      if rec.limitedFlag = 0 then .accountSetLimit r bus rec.tag account false rec.limit
      else if rec.limitedFlag = 1 then .accountSetLimit r bus rec.tag account true rec.limit
      else .accountInvalidOperation r bus rec
    else if rec.op = 2 then .accountClearTotal r bus rec.tag account
    else if rec.op = 3 then .accountSuspend r bus rec.tag account
    else if rec.op = 4 then .accountResume r bus rec.tag account
    else if rec.op = 5 then .accountRead r bus rec.tag account
    else .accountInvalidOperation r bus rec
  else .accountInvalidOperation r bus rec

/-- The take command for the record that `rd` reads (R172), decided by its kind byte; total: a kind that R172 does
not assign is an unknown request kind (R30). -/
def decodeRequest (r : OrderRing) (bus : TakeBus) (rd : Nat → Byte) : Instr :=
  let flags := rd 1
  let tag := halfAt rd 2
  if rd 0 = 0x01 then
    .placeCall r bus
      { flags := flags, tag := tag, account := rd 4, mask := rd 5, policy := rd 6, digitCount := rd 7,
        answerTimeout := halfAt rd 8, maxDuration := halfAt rd 10,
        digits := Vector.ofFn fun i : Fin 24 => rd (12 + i.val) }
  else if rd 0 = 0x02 then
    .accept r bus { flags := flags, tag := tag, line := rd 4, maxDuration := halfAt rd 6 }
  else if rd 0 = 0x03 then
    .cancel r bus { flags := flags, tag := tag, target := halfAt rd 4 }
  else if rd 0 = 0x04 then
    .release r bus { flags := flags, tag := tag, target := halfAt rd 4 }
  else if rd 0 = 0x10 then
    .setLine r bus
      { tag := tag, line := rd 4, enable := rd 5, dialToneRequired := rd 6, qualify := rd 7,
        seizeTimeout := halfAt rd 8, answerDefault := halfAt rd 10, toneTime := halfAt rd 12,
        gapTime := halfAt rd 14, clearGuard := halfAt rd 16 }
  else if rd 0 = 0x11 then
    .loadPrefix r bus
      { tag := tag, index := rd 4, present := rd 5, length := rd 6, cls := rd 7,
        symbols := Vector.ofFn fun i : Fin 12 => rd (8 + i.val) }
  else if rd 0 = 0x12 then
    .loadBand r bus
      { tag := tag, cls := rd 4, band := rd 5, present := rd 6, daySet := rd 7, start := wordAt rd 8,
        period := halfAt rd 12, unitCharge := halfAt rd 14, setupCharge := halfAt rd 16 }
  else if rd 0 = 0x13 then
    .setPolicy r bus
      { tag := tag, index := rd 4, present := rd 5, limit := rd 6, count := rd 7, outcomes := rd 8,
        intervals := Vector.ofFn fun i : Fin 6 => halfAt rd (10 + 2 * i.val) }
  else if rd 0 = 0x14 then
    decodeAccount r bus
      { tag := tag, account := rd 4, op := rd 5, limitedFlag := rd 6, limit := wordAt rd 8 }
  else if rd 0 = 0x15 then
    .setClock r bus { tag := tag, day := halfAt rd 4, second := wordAt rd 8 }
  else .unknownRequestKind r bus (rd 0) tag

/-! ## Register writes (R157, R170) -/

/-- The command a value written to CONTROL gives (R157): RESET wins; otherwise exactly one of START, QUIESCE and
ABORT; otherwise a bad command. START's other operands stand for what its shared-memory reads find. -/
def decodeControl (stores : HostStores) (first : OrderRing) (bus : StartBus) (value : Word) : Instr :=
  if value.getLsbD 3 then .reset
  else if isBadCommand value then .badCommand value
  else if value.getLsbD 0 then .start stores first bus
  else if value.getLsbD 1 then .quiesce
  else .abort

/-- The commands a value written to POST gives, one for each bit set (R26, R149), in one of the orders allowed. -/
def decodePost (stores : HostStores) (value : Word) : List Instr :=
  (if value.getLsbD 0 then [.orderRingPost stores .urgent false] else [])
    ++ (if value.getLsbD 1 then [.orderRingPost stores .routine false] else [])
    ++ (if value.getLsbD 2 then [.reportPostBit stores false] else [])

end Sys2Proof
end

