-- ==== Sys2Proof/Machine/Memory.lean ====
section
/-! DEFINITION. Shared memory (R24, R145, R166): a list of cells in one canonical form, and the part's accesses to
it by address. -/

namespace Sys2Proof.Machine

/-- Shared memory: addresses strictly rising, no cell equal to what an unlisted address reads as. -/
abbrev Memory := List Host.Cell

/-- What an address that nothing has written reads as. DESIGN CHOICE (log 8), unsafe: the memory is the host's and
the spec gives it no content. -/
def Memory.unlisted : Byte := 0

/-- The byte at an address. -/
def Memory.read : Memory → Nat → Byte
  | [], _ => Memory.unlisted
  | (k, v) :: rest, a => if k = a then v else Memory.read rest a

/-- The byte at an address becomes `v`; the canonical form is kept. -/
def Memory.write : Memory → Nat → Byte → Memory
  | [], a, v => if v = Memory.unlisted then [] else [(a, v)]
  | (k, w) :: rest, a, v =>
    if a < k then
      if v = Memory.unlisted then (k, w) :: rest else (a, v) :: (k, w) :: rest
    else if a = k then
      if v = Memory.unlisted then rest else (a, v) :: rest
    else (k, w) :: Memory.write rest a v

/-- Every address of a memory lies above `a`. -/
def Memory.above (a : Nat) : Memory → Bool
  | [] => true
  | (k, _) :: rest => decide (a < k) && Memory.above a rest

/-- The canonical form. -/
def Memory.wf : Memory → Bool
  | [] => true
  | (k, v) :: rest => decide (v ≠ Memory.unlisted) && Memory.above k rest && Memory.wf rest

/-- The byte address `off` bytes above `base`. DESIGN CHOICE (log 10): 32-bit addresses wrap. -/
def addrOf (base : Word) (off : Nat) : Nat := (base + BitVec.ofNat 32 off).toNat

/-- Bytes stored at offsets from a base, in order. -/
def Memory.writeCells (base : Word) : List (Nat × Byte) → Memory → Memory
  | [], m => m
  | (off, b) :: rest, m => Memory.writeCells base rest (m.write (addrOf base off) b)

/-- The host's stores, in order (log 11). -/
def Memory.hostStores : HostStores → Memory → Memory
  | [], m => m
  | (a, b) :: rest, m => Memory.hostStores rest (m.write a.toNat b)

/-- The byte `off` bytes above `base`. -/
def State.readAt (s : State) (base : Word) (off : Nat) : Byte := Memory.read s.mem (addrOf base off)

/-- The producer index of the ring whose header lies at `header` (R171). -/
def State.readProducer (s : State) (header : Word) : Half := halfAt (s.readAt header) 0

/-- The consumer index of the ring whose header lies at `header` (R171). -/
def State.readConsumer (s : State) (header : Word) : Half := halfAt (s.readAt header) 4

/-- Bytes stored at offsets from a base. -/
def State.storeCells (s : State) (base : Word) (cells : List (Nat × Byte)) : State :=
  { s with mem := Memory.writeCells base cells s.mem }

/-- A producer index written into a ring header (R145, R171). -/
def State.writeProducer (s : State) (header : Word) (i : Half) : State :=
  s.storeCells header (cellsAt 0 (halfBytes i))

/-- A consumer index written into a ring header (R24, R171). -/
def State.writeConsumer (s : State) (header : Word) (i : Half) : State :=
  s.storeCells header (cellsAt 4 (halfBytes i))

/-- The host's stores that came with a command (log 11). -/
def State.hostStores (s : State) (stores : HostStores) : State :=
  { s with mem := Memory.hostStores stores s.mem }

/-- Those bytes of a 64-byte record that a failed or cut write has left in its slot (logs 19, 24): byte `k` where bit `k` of
`landed` is set. -/
def landedCells (landed : BitVec 64) (bytes : List Byte) : List (Nat × Byte) :=
  (cellsAt 0 bytes).filter fun cell => landed.getLsbD cell.1

/-- The address of the slot that index `i` names in a ring (R24, R145). -/
def slotAddr (base : Word) (size : Nat) (i : Half) : Word := base + BitVec.ofNat 32 (64 * (i.toNat % size))

end Sys2Proof.Machine
end

