-- ==== Sys2Proof/Machine/Ops.lean ====
section
/-! DEFINITION. The named operations over the pieces of state: one access and one update for each, the lists of
the allocator and the retry schedule, the queueing of reports (R147). -/

namespace Sys2Proof.Machine

/-! ## Access and update, one piece of state each -/

/-- Context `c`. -/
def State.ctx (s : State) (c : CtxId) : Context := s.ctxs[c]

/-- Context `c` changed by `f`. -/
def State.modCtx (s : State) (c : CtxId) (f : Context → Context) : State :=
  { s with ctxs := s.ctxs.set c (f s.ctxs[c]) }

/-- Line `l`. -/
def State.line (s : State) (l : LineId) : Line := s.lines[l]

/-- Line `l` changed by `f`. -/
def State.modLine (s : State) (l : LineId) (f : Line → Line) : State :=
  { s with lines := s.lines.set l (f s.lines[l]) }

/-- The metering entry of line `l`. -/
def State.meter (s : State) (l : LineId) : Option MeterEntry := s.meters[l]

/-- The metering entry of line `l` replaced; `none` closes it. -/
def State.setMeter (s : State) (l : LineId) (e : Option MeterEntry) : State :=
  { s with meters := s.meters.set l e }

/-- Account `a`. -/
def State.account (s : State) (a : AccountId) : Account := s.retained.accounts[a]

/-- The account table with account `a` changed by `f`, its check word rewritten with it (R128). -/
def Retained.modAccount (t : Retained) (a : AccountId) (f : Account → Account) : Retained :=
  t.setAccounts (t.accounts.set a (f t.accounts[a]))

/-- The retained domain changed by `f`. -/
def State.modRetained (s : State) (f : Retained → Retained) : State := { s with retained := f s.retained }

/-- Account `a` changed by `f`, the check word with it (R128). -/
def State.modAccount (s : State) (a : AccountId) (f : Account → Account) : State :=
  s.modRetained fun t => t.modAccount a f

/-- The control block changed by `f`. -/
def State.modCtl (s : State) (f : Control → Control) : State := { s with ctl := f s.ctl }

/-- The error code set (R157). -/
def State.setError (s : State) (e : ErrorCode) : State := s.modCtl fun k => { k with error := e }

/-- The engine state set (R158). -/
def State.setEngine (s : State) (e : EngineState) : State := s.modCtl fun k => { k with engine := e }

/-- The report writer changed by `f`. -/
def State.modReport (s : State) (f : ReportWriter → ReportWriter) : State := { s with report := f s.report }

/-- Order ring `r`. -/
def State.ring (s : State) : OrderRing → Ring
  | .urgent => s.intake.urgent
  | .routine => s.intake.routine

/-- Order ring `r` replaced. -/
def State.setRing (s : State) (r : OrderRing) (x : Ring) : State :=
  match r with
  | .urgent => { s with intake := { s.intake with urgent := x } }
  | .routine => { s with intake := { s.intake with routine := x } }

/-- Order ring `r` changed by `f`. -/
def State.modRing (s : State) (r : OrderRing) (f : Ring → Ring) : State := s.setRing r (f (s.ring r))

/-- The urgent streak counter set (R31). -/
def State.setStreak (s : State) (n : Nat) : State := { s with intake := { s.intake with streak := n } }

/-- The waiting list replaced. -/
def State.setWaiting (s : State) (w : Waiting) : State := { s with waiting := w }

/-- The free line list replaced. -/
def State.setFree (s : State) (ls : List LineId) : State := { s with freeLines := ls }

/-- The retry schedule replaced. -/
def State.setSchedule (s : State) (cs : List CtxId) : State := { s with schedule := cs }

/-- The order ring that is not `r`. -/
def otherRing : OrderRing → OrderRing
  | .urgent => .routine
  | .routine => .urgent

/-- A reset is in force (R163). -/
def State.inReset (s : State) : Bool := s.power.powerReset || s.power.resetnLow

/-- C0 to C47 in ascending number. -/
def allContexts : List CtxId := List.finRange 48

/-- Sum that stops at `cap` (the saturating counters of R6, R128, R144). -/
def satAdd (cap a b : Nat) : Nat := min (a + b) cap

/-! ## Context lookups -/

/-- PENDING, RETRY_WAIT or ON_LINE (R1). -/
def CtxState.isActive : CtxState → Bool
  | .pending | .retryWait | .onLine => true
  | .free | .ended => false

/-- The lowest-numbered FREE context (R1). -/
def State.freeCtx (s : State) : Option CtxId := allContexts.find? fun c => decide ((s.ctx c).state = .free)

/-- An active context that carries the tag (R15, R18). -/
def State.activeWithTag (s : State) (tag : Half) : Option CtxId :=
  allContexts.find? fun c => (s.ctx c).state.isActive && decide ((s.ctx c).tag = tag)

/-- Some ENDED context carries the tag (R18, R19). -/
def State.endedWithTag (s : State) (tag : Half) : Bool :=
  allContexts.any fun c => decide ((s.ctx c).state = .ended) && decide ((s.ctx c).tag = tag)

/-! ## Lines -/

/-- The relay is closed (R57). -/
def LineState.offHook : LineState → Bool
  | .seize | .dialing | .awaitAnswer | .connected | .answering | .connectedIn => true
  | .disabled | .idle | .fault | .ringing | .clearing => false

/-- Neither DISABLED nor FAULT (R14, R52, R56). -/
def LineState.usable : LineState → Bool
  | .disabled | .fault => false
  | .idle | .seize | .dialing | .awaitAnswer | .connected | .ringing | .answering | .connectedIn | .clearing => true

/-- The mask names line `l` (R2, bit n for line Ln by R172). -/
def maskNames (mask : BitVec 8) (l : LineId) : Bool := mask.getLsbD l

/-- The mask names at least one usable line (R10, R14, R52). -/
def State.maskUsable (s : State) (mask : BitVec 8) : Bool :=
  allLines.any fun l => maskNames mask l && (s.line l).state.usable

/-- The qualify time in force on a line: the working set's in an attempt or inbound call and the clear guard that
follows it, the stored one otherwise (R34, R58). -/
def Line.qualifyTime (ln : Line) : Nat :=
  if ln.state.offHook || decide (ln.state = .clearing) then ln.working.qualify else ln.stored.qualify

/-! ## The waiting list (R43, R44), the free line list (R46), the retry schedule (R108) -/

/-- The whole waiting list, the URGENT part ahead (R43). -/
def Waiting.all (w : Waiting) : List CtxId := w.urgent ++ w.routine

/-- `c` taken out of the waiting list; the others keep their order (R45). -/
def Waiting.remove (w : Waiting) (c : CtxId) : Waiting :=
  { urgent := w.urgent.filter fun d => decide (d ≠ c), routine := w.routine.filter fun d => decide (d ≠ c) }

/-- `c` at the tail of its origin class's part (R44). -/
def Waiting.joinTail (w : Waiting) (origin : OrderRing) (c : CtxId) : Waiting :=
  match origin with
  | .urgent => { w with urgent := w.urgent ++ [c] }
  | .routine => { w with routine := w.routine ++ [c] }

/-- `c` at the head of its origin class's part (R44). -/
def Waiting.joinHead (w : Waiting) (origin : OrderRing) (c : CtxId) : Waiting :=
  match origin with
  | .urgent => { w with urgent := c :: w.urgent }
  | .routine => { w with routine := c :: w.routine }

/-- Line `l` joins the tail of the free line list (R46). -/
def State.joinFree (s : State) (l : LineId) : State := s.setFree (s.freeLines ++ [l])

/-- Line `l` leaves the free line list; the others keep their order (R46). -/
def State.leaveFree (s : State) (l : LineId) : State := s.setFree (s.freeLines.filter fun k => decide (k ≠ l))

/-- `c`, due at `due`, entered behind every context due at or before it and ahead of every later one (R108). -/
def scheduleInsert (dueOf : CtxId → Nat) (c : CtxId) (due : Nat) : List CtxId → List CtxId
  | [] => [c]
  | d :: rest => if dueOf d ≤ due then d :: scheduleInsert dueOf c due rest else c :: d :: rest

/-- The retry due uptime of a context, for ordering (R108). -/
def State.dueOf (s : State) (c : CtxId) : Nat := (s.ctx c).due.getD 0

/-- `c` taken out of the retry schedule (R108). -/
def State.unschedule (s : State) (c : CtxId) : State := s.setSchedule (s.schedule.filter fun d => decide (d ≠ c))

/-! ## The outbox (R146, R147) -/

/-- A REQUEST_DONE entry. -/
def OutboxEntry.isDone (e : OutboxEntry) : Bool := match e.body with | .done _ => true | _ => false

/-- A PROGRESS entry. -/
def OutboxEntry.isProgress (e : OutboxEntry) : Bool := match e.body with | .progress _ => true | _ => false

/-- An UNSOLICITED entry. -/
def OutboxEntry.isUnsolicited (e : OutboxEntry) : Bool := match e.body with | .unsolicited _ => true | _ => false

/-- An entry appended at the tail of the outbox (R146). -/
def State.queue (s : State) (body : EntryBody) (urgent : Bool) : State :=
  s.modReport fun r => { r with outbox := r.outbox ++ [{ body := body, urgent := urgent }] }

/-- A done slot is free: fewer than 8 REQUEST_DONE reports are in the outbox (R30). -/
def State.doneSlotFree (s : State) : Bool := decide (s.report.outbox.countP OutboxEntry.isDone < Config.quota)

/-- The calendar as it now reads (R124). -/
def State.now (s : State) : Stamp := { day := s.retained.calendar.day, second := s.retained.calendar.second }

/-- A REQUEST_DONE composed and appended (R33); urgent only for a CANCEL or RELEASE with signal-now (R152). -/
def State.queueDone (s : State) (tag : Half) (kind : Byte) (status : DoneStatus)
    (data : Option (AccountId × Account)) (urgent : Bool) : State :=
  s.queue (.done { tag := tag, kind := kind, status := status, data := data }) urgent

/-- LIMIT_WARNING, the one progress report that is always urgent (R152). -/
def ProgressKind.isWarning : ProgressKind → Bool
  | .limitWarning _ => true
  | .attemptStart | .ringing | .answered | .attemptFailed .. => false

/-- A PROGRESS report of context `c` on line `l` queued, or dropped and counted in the context (R147, R150). -/
def State.queueProgress (s : State) (c : CtxId) (l : LineId) (kind : ProgressKind) : State :=
  if s.report.outbox.countP OutboxEntry.isProgress < Config.quota then
    s.queue (.progress { tag := (s.ctx c).tag, kind := kind, line := l, attempts := (s.ctx c).attempts })
      ((s.ctx c).signalNow || kind.isWarning)
  else s.modCtx c fun x => { x with drops := satAdd Config.max8 x.drops 1 }

/-- A PROGRESS report that is produced only when the context's progress reports flag is set (R150). -/
def State.queueProgressIfAsked (s : State) (c : CtxId) (l : LineId) (kind : ProgressKind) : State :=
  if (s.ctx c).progress then s.queueProgress c l kind else s

/-- An UNSOLICITED report queued with the calendar stamp, or dropped and counted as missed (R147, R151). -/
def State.queueUnsolicited (s : State) (kind : UnsolicitedKind) : State :=
  if s.report.outbox.countP OutboxEntry.isUnsolicited < Config.quota then
    s.queue (.unsolicited { kind := kind, stamp := s.now }) true
  else s.modReport fun r => { r with missed := satAdd Config.max8 r.missed 1 }

end Sys2Proof.Machine
end

