-- ==== Sys2Proof/Machine/Classifier.lean ====
section
/-! DEFINITION. The call-progress classifier of a line (chapter 5). -/

namespace Sys2Proof.Machine

/-- The classifier reset and enabled (R81); reports of an earlier enabled period are stale (R90). -/
def Line.enableClassifier (ln : Line) : Line :=
  { ln with
    classifier :=
      { enabled := true, cls := .unknown, level := ln.tonePresent, periodOn := ln.tonePresent, elapsed := 0,
        whole := false, cycleOn := none, matchCount := 0, matchKind := none }
    reports := ln.reports.map fun r => { r with stale := true } }

/-- The classifier disabled (R82); reports not yet taken are stale from now on (R90). -/
def Line.disableClassifier (ln : Line) : Line :=
  { ln with classifier := Classifier.disabled, reports := ln.reports.map fun r => { r with stale := true } }

/-- The class becomes `cls`, and a change is reported (R90). -/
def Line.setClass (ln : Line) (cls : ToneClass) : Line :=
  if ln.classifier.cls = cls then ln
  else
    { ln with
      classifier := { ln.classifier with cls := cls }
      reports := ln.reports ++ [{ cls := cls, stale := false }] }

/-- The four kinds of cycle (R86). -/
inductive CycleKind where
  | busy
  | congestion
  | ringback
  | mismatched
deriving DecidableEq, Repr

/-- The judgement of a cycle by its two durations in ms (R86). -/
def cycleKind (on off : Nat) : CycleKind :=
  if 350 ≤ on ∧ on ≤ 650 ∧ 350 ≤ off ∧ off ≤ 650 then .busy
  else if 150 ≤ on ∧ on ≤ 349 ∧ 150 ≤ off ∧ off ≤ 349 then .congestion
  else if 700 ≤ on ∧ on ≤ 1500 ∧ 2000 ≤ off ∧ off ≤ 5000 then .ringback
  else .mismatched

/-- The class a run of short cycles names. -/
def MatchKind.toneClass : MatchKind → ToneClass
  | .busy => .busy
  | .congestion => .congestion

/-- A short cycle judged (R87): the run goes on or starts at 1, and a run of 2 sets the class. -/
def Line.shortCycle (ln : Line) (kind : MatchKind) : Line :=
  let count := if ln.classifier.matchKind = some kind then min (ln.classifier.matchCount + 1) 2 else 1
  let ln1 := { ln with classifier := { ln.classifier with matchCount := count, matchKind := some kind } }
  if count = 2 then ln1.setClass kind.toneClass else ln1

/-- The run of short cycles broken. -/
def Line.breakRun (ln : Line) : Line :=
  { ln with classifier := { ln.classifier with matchCount := 0, matchKind := none } }

/-- A cycle judged mismatched (R89). -/
def Line.loseCadence (ln : Line) : Line := ln.breakRun.setClass .unknown

/-- The cycle of the given durations judged (R86 to R89). -/
def Line.judgeCycle (ln : Line) (on off : Nat) : Line :=
  match cycleKind on off with
  | .busy => ln.shortCycle .busy
  | .congestion => ln.shortCycle .congestion
  | .ringback => ln.breakRun.setClass .ringback
  | .mismatched => ln.loseCadence

/-- A new WHOLE period opened with elapsed time 0 (R83). -/
def Line.openPeriod (ln : Line) (on : Bool) (cycleOn : Option Nat) : Line :=
  { ln with
    classifier :=
      { ln.classifier with level := on, periodOn := on, elapsed := 0, whole := true, cycleOn := cycleOn } }

/-- The tone has returned: an OFF period ends (R83). -/
def Line.toneReturns (ln : Line) : Line :=
  match ln.classifier.cycleOn with
  | some on =>
    if ln.classifier.whole then (ln.judgeCycle on ln.classifier.elapsed).openPeriod true none
    else ln.openPeriod true none
  | none => ln.openPeriod true none

/-- The tone has stopped: an ON period ends (R83, R85). -/
def Line.toneStops (ln : Line) : Line :=
  let ln1 := if ln.classifier.cls = .dial then ln.setClass .unknown else ln
  if ln.classifier.whole then ln1.openPeriod false (some ln.classifier.elapsed) else ln1.openPeriod false none

/-- A change of the qualified tone energy given to the classifier, which acts only while enabled (R82, R83). -/
def Line.toneChanged (ln : Line) (present : Bool) : Line :=
  if ln.classifier.enabled && decide (ln.classifier.level ≠ present) then
    if present then ln.toneReturns else ln.toneStops
  else ln

/-- The ON period reaches the dial-tone mark (R85). -/
def Line.dialMark (ln : Line) : Line :=
  if ln.classifier.enabled && ln.classifier.periodOn && decide (ln.classifier.cls ≠ .dial) then
    Line.setClass
      { ln with classifier := { ln.classifier with elapsed := max ln.classifier.elapsed Config.dialToneMs } } .dial
  else ln

/-- A WHOLE OFF period overruns while a cycle on-duration is held (R89). -/
def Line.offOverrun (ln : Line) : Line :=
  if ln.classifier.enabled && !ln.classifier.periodOn && ln.classifier.whole && ln.classifier.cycleOn.isSome then
    Line.loseCadence
      { ln with
        classifier :=
          { ln.classifier with
            cycleOn := none, elapsed := max ln.classifier.elapsed Config.offOverrunMs } }
  else ln

end Sys2Proof.Machine
end

