-- ==== Sys2Proof/Machine/Tariff.lean ====
section
/-! DEFINITION. The tariff unit (chapter 8): prefix matching (R116, R117), the band in force (R119 to R122), the
advance of the calendar (R123). -/

namespace Sys2Proof.Machine

/-- The symbol's tone code, absent for P and W. -/
def Symbol.code? : Symbol → Option (Fin 12)
  | .tone k => some k
  | .pause | .wait => none

/-- The dialled number: the digit string without P and W (R116). -/
def dialledNumber (digits : List Symbol) : List (Fin 12) := digits.filterMap Symbol.code?

/-- A present entry matches when its symbols stand at the start of the number (R116). -/
def PrefixEntry.matchesNumber (e : PrefixEntry) (number : List (Fin 12)) : Bool := e.symbols.isPrefixOf number

/-- The deciding entry of a run of entries in index order: the longest match, the lowest index among equals (R117). -/
def decidingEntry (number : List (Fin 12)) : List (Option PrefixEntry) → Option PrefixEntry
  | [] => none
  | none :: rest => decidingEntry number rest
  | some e :: rest =>
    if e.matchesNumber number then
      match decidingEntry number rest with
      | some f => if e.symbols.length < f.symbols.length then some f else some e
      | none => some e
    else decidingEntry number rest

/-- The result of resolving a dialled number (R117): barred, a class, or no class. -/
inductive Resolution where
  | barred
  | tariff (c : ClassId)
  | noClass
deriving DecidableEq, Repr

/-- The number resolved against the prefix table and the default class copied at START (R117). -/
def State.resolve (s : State) (number : List (Fin 12)) : Resolution :=
  match decidingEntry number s.retained.prefixes.toList with
  | some e =>
    match e.cls with
    | .barred => .barred
    | .tariff c => .tariff c
  | none =>
    match s.ctl.setup.defaultClass with
    | some c => .tariff c
    | none => .noClass

/-- The class has at least one present band (R14, R117). -/
def State.hasBand (s : State) (c : ClassId) : Bool := s.retained.bands[c].toList.any Option.isSome

/-- Day of the week of a day number (R119). -/
def dayOfWeek (day : Half) : Nat := day.toNat % 7

/-- The day before, by its day of the week alone (R119). -/
def yesterdayOf (dow : Nat) : Nat := (dow + 6) % 7

/-- The day set contains a day of the week (R119). -/
def DaySet.holds (d : DaySet) (dow : Nat) : Bool :=
  match d with
  | .all => true
  | .workdays => decide (dow ≤ 4)
  | .restdays => decide (5 ≤ dow)

/-- Among the bands of a run in index order that `fits` accepts, the one with the latest start second, the lowest
index among equals (R120). -/
def latestBand (fits : Band → Bool) : List (Option Band) → Option Band
  | [] => none
  | none :: rest => latestBand fits rest
  | some b :: rest =>
    if fits b then
      match latestBand fits rest with
      | some f => if b.start < f.start then some f else some b
      | none => some b
    else latestBand fits rest

/-- The price a lookup answers with (R122). -/
structure UnitPrice where
  period : Nat
  unitCharge : Nat
  setupCharge : Nat
deriving DecidableEq, Repr

/-- The free unit (R121). -/
def UnitPrice.free : UnitPrice := { period := 60, unitCharge := 0, setupCharge := 0 }

/-- The price of a band. -/
def Band.price (b : Band) : UnitPrice :=
  { period := b.period, unitCharge := b.unitCharge, setupCharge := b.setupCharge }

/-- The band in force for the bands of a class (R120 while the calendar is valid, R121 while it is not). -/
def bandInForce (cal : Calendar) (bands : List (Option Band)) : Option Band :=
  if cal.valid then
    let today := dayOfWeek cal.day
    match latestBand (fun b => b.daySet.holds today && decide (b.start ≤ cal.second)) bands with
    | some b => some b
    | none => latestBand (fun b => b.daySet.holds (yesterdayOf today)) bands
  else bands.findSome? id

/-- A band lookup at this moment (R122): the band in force, or the free unit (R121). -/
def State.priceNow (s : State) (cls : Option ClassId) : UnitPrice :=
  match cls with
  | some c =>
    match bandInForce s.retained.calendar s.retained.bands[c].toList with
    | some b => b.price
    | none => UnitPrice.free
  | none => UnitPrice.free

/-- The calendar one second on (R123): the second wraps at 86400 into the day, the day wraps at 65536. -/
def Calendar.advance (c : Calendar) : Calendar :=
  if 86399 < c.second + 1 then { c with second := 0, day := c.day + 1, ms := 0 }
  else { c with second := c.second + 1, ms := 0 }

end Sys2Proof.Machine
end

