-- ==== Sys2Proof/Machine/Ending.lean ====
section
/-! DEFINITION. How attempts and calls end: the ending step of a context (R11), the ending step of a line (R73),
the clearing of a line whose context was ended (R74), the fault step (R77), the judgement of a failed attempt
(R105 to R107), the end-of-call bookkeeping (R136). -/

namespace Sys2Proof.Machine

/-- Step 1 of R73 and R77: every timer of the attempt or call stopped, the drive off, the classifier disabled, the
digit position absent. -/
def Line.stopAttempt (ln : Line) : Line :=
  { ln.disableClassifier with
    dialToneWait := false, digitPos := none, drive := none, loopTimer := none, dialToneTimer := none,
    digitTimer := none, pauseTimer := none, answerTimer := none, maxDurationTimer := none,
    farClearTimer := none }

/-- Steps 1 and 2 of R73 on a line: it enters CLEARING with its guard from the working set, its held context
removed. -/
def Line.toClearing (ln : Line) : Line :=
  { ln.stopAttempt with state := .clearing, clearGuard := some ln.working.clearGuard, held := none }

/-- An off-hook line cleared (R73 steps 1 and 2, R74), its metering entry closed (R129). A line that is not off-hook
holds no context and is left alone. -/
def State.clearLine (s : State) (l : LineId) : State :=
  if (s.line l).state.offHook then (s.modLine l Line.toClearing).setMeter l none else s

/-- The CALL_END composed from a context as it stands (R20). -/
def Context.compose (x : Context) (outcome : CallOutcome) : CallEnd :=
  { tag := x.tag, outcome := outcome, direction := x.direction, origin := x.origin, line := x.lastLine,
    attempts := x.attempts, account := x.account, tariff := x.tariff, stamp := x.stamp,
    connectedSeconds := x.connectedMs / 1000, units := x.units, charge := x.charge, drops := x.drops }

/-- Step 1 of R11: the context leaves the list or the line it is on. Ended on its line by the host or the engine, it
detaches, its last attempt outcome is set, and the line clears (R9, R74). -/
def State.leavePlace (s : State) (c : CtxId) (outcome : CallOutcome) : State :=
  match (s.ctx c).state with
  | .pending => s.setWaiting (s.waiting.remove c)
  | .retryWait => s.unschedule c
  | .onLine =>
    match (s.ctx c).currentLine with
    | some l => (s.clearLine l).modCtx c fun x => { x with currentLine := none, lastOutcome := some outcome }
    | none => s
  | .free | .ended => s

/-- The account's end-of-call bookkeeping (R136); the metering entry closed as the context detached (R129). -/
def Account.callEnded (a : Account) : Account := { a with active := a.active - 1, completed := a.completed + 1 }

/-- Step 3 of R11: the bookkeeping of an OUTBOUND context that was answered. -/
def State.bookkeeping (s : State) (c : CtxId) : State :=
  if (s.ctx c).direction = .outbound ∧ (s.ctx c).stamp.isSome then
    match (s.ctx c).account with
    | some a => s.modAccount a Account.callEnded
    | none => s
  else s

/-- The ending step of a context (R11). -/
def State.endContext (s : State) (c : CtxId) (outcome : CallOutcome) : State :=
  let s1 := s.leavePlace c outcome
  let s2 := s1.modCtx c fun x => { x with state := .ended, due := none, finalOutcome := some outcome }
  let s3 := s2.bookkeeping c
  let s4 := s3.modCtx c fun x => { x with record := some (x.compose outcome) }
  s4.queue (.callEnd c) (s4.ctx c).signalNow

/-- The bit of an attempt failure in a retry outcome set (R172); absent for any other outcome (R17). -/
def CallOutcome.failureBit : CallOutcome → Option Nat
  | .busy => some 0
  | .noAnswer => some 1
  | .congestion => some 2
  | .noDialtone => some 3
  | .noLoop => some 4
  | .completedNear | .completedFar | .lineLost | .lineFault | .barred | .noTariff | .noLine | .badRequest
  | .duplicateTag | .notRinging | .limitReached | .accountSuspended | .durationLimit | .cancelled | .withdrawn
  | .aborted => none

/-- The snapshot allows the failure to be retried after `attempts` attempts (R105). -/
def Policy.allowsRetry (p : Policy) (failure : CallOutcome) (attempts : Nat) : Bool :=
  match failure.failureBit with
  | some b => p.outcomes.getLsbD b && decide (attempts < p.limit)
  | none => false

/-- The interval chosen by the attempt count: position `attempts`, or the last one once the list is used up (R106). DESIGN
CHOICE (log 26): from an empty list, which R106 does not provide for, a free value. -/
def Policy.intervalFor (p : Policy) (attempts : Nat) : Nat :=
  p.intervals.getD (min attempts p.intervals.length - 1) (Config.unstatedInterval attempts)

/-- The engine is DRAINING or ABORTING, where no context re-enters a waiting state (R13). -/
def State.windingDown (s : State) : Bool := decide (s.ctl.engine = .draining) || decide (s.ctl.engine = .aborting)

/-- A context placed in RETRY_WAIT after a failed attempt on line `l` (R106, R107). -/
def State.enterRetryWait (s : State) (c : CtxId) (l : LineId) (failure : CallOutcome) : State :=
  let interval := (s.ctx c).snapshot.intervalFor (s.ctx c).attempts
  let due := satAdd Config.max32 s.uptime interval
  let s1 := s.modCtx c fun x => { x with state := .retryWait, due := some due }
  let s2 := s1.setSchedule (scheduleInsert s1.dueOf c due s1.schedule)
  s2.queueProgressIfAsked c l (.attemptFailed failure interval)

/-- The judgement of a failed outbound attempt (R105, with R13 and the stopped uptime of R106). -/
def State.judgeFailure (s : State) (c : CtxId) (l : LineId) (failure : CallOutcome) : State :=
  if (s.ctx c).snapshot.allowsRetry failure (s.ctx c).attempts then
    if s.windingDown then s.endContext c .withdrawn
    else if s.uptime = Config.max32 then s.endContext c failure
    else s.enterRetryWait c l failure
  else s.endContext c failure

/-- The held context handed its outcome (R73 step 3): it detaches and its last attempt outcome is set. -/
def State.detach (s : State) (c : CtxId) (outcome : CallOutcome) : State :=
  s.modCtx c fun x => { x with currentLine := none, lastOutcome := some outcome }

/-- The ending step of a line (R73): the line clears, its context detaches, and a failed outbound attempt is judged,
any other outcome ends the context. -/
def State.endOnLine (s : State) (l : LineId) (outcome : CallOutcome) : State :=
  match (s.line l).held with
  | some c =>
    let s1 := s.clearLine l
    if (s.ctx c).state = .onLine then
      let s2 := s1.detach c outcome
      if outcome.failureBit.isSome ∧ (s.ctx c).direction = .outbound then s2.judgeFailure c l outcome
      else s2.endContext c outcome
    else s1
  | none => s.clearLine l

/-- A line taken to FAULT (R77 steps 1 and 2). -/
def Line.toFault (ln : Line) : Line :=
  { ln.stopAttempt with state := .fault, held := none, disablePending := false }

/-- Steps 1 to 4 of the fault step of an off-hook line (R77); the sweep of step 5 is the allocator's. -/
def State.faultLine (s : State) (l : LineId) : State :=
  let s1 := (s.modLine l Line.toFault).setMeter l none
  let s2 : State :=
    match (s.line l).held with
    | some c => if (s.ctx c).state = .onLine then (s1.detach c .lineFault).endContext c .lineFault else s1
    | none => s1
  s2.queueUnsolicited (.lineFault l)

end Sys2Proof.Machine
end

