-- ==== Sys2Proof/Machine/Metering.lean ====
section
/-! DEFINITION. The meter (chapter 9): the charge rule (R130), the metering of an answer (R131), a unit start (R132),
the cut (R133), the warning (R134), admission (R49). -/

namespace Sys2Proof.Machine

/-- The account lets a charge be applied: not limited, or a charge of 0, or room for it below the limit (R130). -/
def Account.allows (a : Account) (amount : Nat) : Bool :=
  !a.limited || decide (amount = 0) || decide (a.total + amount ≤ a.limit)

/-- A charge put to account `a` for context `c` (R130): applied to the total and the call charge, or refused
(`none`), which changes nothing. -/
def State.charge (s : State) (a : AccountId) (c : CtxId) (amount : Nat) : Option State :=
  if (s.account a).allows amount then
    some ((s.modAccount a fun x => { x with total := satAdd Config.max32 x.total amount }).modCtx c fun x =>
      { x with charge := satAdd Config.max32 x.charge amount })
  else none

/-- The room left on an account, 0 when its total stands above its limit (R134). -/
def Account.room (a : Account) : Nat := a.limit - a.total

/-- The LIMIT_WARNING judgement for the call metered on line `l` after a unit charge (R134). -/
def State.judgeWarning (s : State) (l : LineId) (e : MeterEntry) : State :=
  if (s.account e.account).limited ∧ (s.account e.account).limit < (s.account e.account).total + e.unitCharge
      ∧ e.warned = false then
    (s.setMeter l (some { e with warned := true })).queueProgress e.ctx l
      (.limitWarning (s.account e.account).room)
  else s

/-- A unit started on the entry `e` of line `l` at `startsAt` on the line's timer (R131 steps 6 and 7, R132 steps 3
and 4): its number, charge and period set, the context's units, the next unit start, the warning judged. -/
def State.startUnit (s : State) (l : LineId) (e : MeterEntry) (startsAt : Nat) (price : UnitPrice) : State :=
  let number := satAdd Config.max16 e.unitNumber 1
  let e1 :=
    { e with
      unitNumber := number, unitCharge := price.unitCharge, unitPeriod := price.period
      nextStart := startsAt + price.period * 1000 }
  ((s.setMeter l (some e1)).modCtx e.ctx fun x => { x with units := number }).judgeWarning l e1

/-- The metering of an outbound answer of context `c` on line `l` (R131). -/
def State.meterAnswer (s : State) (l : LineId) (c : CtxId) : State :=
  match (s.ctx c).account with
  | none => s
  | some a =>
    let price := s.priceNow (s.ctx c).tariff
    let now := (s.line l).msTimer
    let e : MeterEntry :=
      { ctx := c, account := a, tariff := (s.ctx c).tariff, unitNumber := 0, unitPeriod := price.period,
        unitCharge := price.unitCharge, nextStart := now, warned := false }
    let s1 := (s.setMeter l (some e)).modAccount a fun x => { x with active := x.active + 1 }
    match s1.charge a c price.setupCharge with
    | none => s1.endOnLine l .limitReached
    | some s2 =>
      match s2.charge a c price.unitCharge with
      | none => s2.endOnLine l .limitReached
      | some s3 => s3.startUnit l e now price

/-- A unit start of line `l` (R132); nothing for a closed entry (R129). -/
def State.unitStarts (s : State) (l : LineId) : State :=
  match s.meter l with
  | none => s
  | some e =>
    let price := s.priceNow e.tariff
    match s.charge e.account e.ctx price.unitCharge with
    | none => s.endOnLine l .limitReached
    | some s1 => s1.startUnit l e e.nextStart price

/-- Admission of context `c` at a grant (R49): the refusal's outcome, or `none` when admitted. -/
def State.admissionRefusal (s : State) (c : CtxId) : Option CallOutcome :=
  match (s.ctx c).account with
  | none => none
  | some a =>
    if (s.account a).suspended then some .accountSuspended
    else if (s.account a).limited ∧ (s.account a).limit ≤ (s.account a).total then some .limitReached
    else none

end Sys2Proof.Machine
end

