-- ==== Sys2Proof/Machine/Answering.lean ====
section
/-! DEFINITION. An outbound attempt on its line (R61 to R69) and the answering of an incoming call (R97, R99). -/

namespace Sys2Proof.Machine

/-- The answer entry of a line: CONNECTED or CONNECTED_IN, its timers as R69, R72 and R99 give. -/
def Line.toConnected (ln : Line) (state : LineState) (maxDuration : Nat) : Line :=
  { ln.disableClassifier with
    state := state, answerTimer := none, loopTimer := none, farClearTimer := none
    maxDurationTimer := if maxDuration = 0 then none else some (maxDuration * 1000) }

/-- An outbound call answered on line `l` (R69). -/
def State.answer (s : State) (l : LineId) : State :=
  match (s.line l).held with
  | none => s
  | some c =>
    let s1 := s.modLine l fun ln => ln.toConnected .connected (s.ctx c).maxDuration
    let s2 := s1.modCtx c fun x => { x with stamp := some s.now }
    (s2.queueProgressIfAsked c l .answered).meterAnswer l c

/-- An inbound call answered on line `l` (R99). The meter is not told. -/
def State.connectedInEntry (s : State) (l : LineId) : State :=
  match (s.line l).held with
  | none => s
  | some c =>
    let s1 := s.modLine l fun ln => ln.toConnected .connectedIn (s.ctx c).maxDuration
    let s2 := s1.modCtx c fun x => { x with stamp := some s.now }
    s2.queueProgressIfAsked c l .answered

/-- The answer timer of an attempt, ms: the context's own timeout, or the working set's default for 0 (R67). -/
def answerTimeoutMs (own : Nat) (ln : Line) : Nat := (if own = 0 then ln.working.answerDefault else own) * 1000

/-- The entry of line `l`, held by `c`, to AWAIT_ANSWER (R67); a REVERSED pattern answers at once. -/
def State.awaitAnswerEntry (s : State) (l : LineId) (c : CtxId) : State :=
  let s1 := s.modLine l fun ln =>
    { ln.enableClassifier with
      state := .awaitAnswer, digitPos := none
      answerTimer := some (answerTimeoutMs (s.ctx c).answerTimeout ln) }
  if (s.line l).loopPattern = .reversed then s1.answer l else s1

/-- The symbol at a digit position of a context, 1 for the first (R63). -/
def Context.symbolAt (x : Context) (pos : Nat) : Option Symbol := (x.digits.getD [])[pos - 1]?

/-- The symbol at digit position `pos` begun on line `l`, held by `c` (R63 to R66); behind the last symbol the line
enters AWAIT_ANSWER. -/
def State.beginSymbol (s : State) (l : LineId) (c : CtxId) (pos : Nat) : State :=
  match (s.ctx c).symbolAt pos with
  | some (.tone k) =>
    s.modLine l fun ln =>
      { ln with digitPos := some pos, drive := some k, digitTimer := some ln.working.toneTime }
  | some .pause => s.modLine l fun ln => { ln with digitPos := some pos, pauseTimer := some Config.pauseMs }
  | some .wait =>
    s.modLine l fun ln =>
      { ln.enableClassifier with digitPos := some pos, dialToneTimer := some Config.waitMs }
  | none => s.awaitAnswerEntry l c

/-- A symbol finished on line `l` (R63): the next one begins, or AWAIT_ANSWER. Symbols are sent in DIALING alone. -/
def State.finishSymbol (s : State) (l : LineId) : State :=
  if (s.line l).state = .dialing then
    match (s.line l).held, (s.line l).digitPos with
    | some c, some pos => s.beginSymbol l c (pos + 1)
    | _, _ => s
  else s

/-- The entry of line `l`, held by `c`, to DIALING (R63). -/
def State.enterDialing (s : State) (l : LineId) (c : CtxId) : State :=
  (s.modLine l fun ln => { ln with state := .dialing, dialToneWait := false }).beginSymbol l c 1

/-- The end of the loop wait of line `l`, held by `c` (R62). -/
def State.loopWaitEnd (s : State) (l : LineId) (c : CtxId) : State :=
  if (s.line l).working.dialToneRequired then
    s.modLine l fun ln =>
      { ln.enableClassifier with
        loopTimer := none, dialToneWait := true
        dialToneTimer := some (ln.working.seizeTimeout * 1000) }
  else (s.modLine l fun ln => { ln with loopTimer := none }).enterDialing l c

/-- What the qualified loop pattern decides at the entry to SEIZE (R61); true tells that the line faulted. -/
def State.seizeEntry (s : State) (l : LineId) (c : CtxId) : State × Bool :=
  match (s.line l).loopPattern with
  | .normal => (s.loopWaitEnd l c, false)
  | .invalid => (s.faultLine l, true)
  | .noLoop | .reversed => (s, false)

/-- The dial tone heard on line `l`: the dial-tone wait ends in DIALING (R62), a W symbol is finished (R66). -/
def State.dialToneHeard (s : State) (l : LineId) : State :=
  match (s.line l).held with
  | none => s
  | some c =>
    let s1 := s.modLine l fun ln => { ln.disableClassifier with dialToneTimer := none }
    if (s.line l).state = .seize then s1.enterDialing l c else s1.finishSymbol l

/-- The digit timer of line `l` runs out (R64): the tone ends and the gap begins, or the symbol is finished. -/
def State.digitTimerOut (s : State) (l : LineId) : State :=
  if (s.line l).drive.isSome then
    s.modLine l fun ln => { ln with drive := none, digitTimer := some ln.working.gapTime }
  else (s.modLine l fun ln => { ln with digitTimer := none }).finishSymbol l

end Sys2Proof.Machine
end

