-- ==== Sys2Proof/Machine/Allocator.lean ====
section
/-! DEFINITION. The line allocator (chapter 3): the grant (R50), the pairing pass (R48), the sweep (R52), the return
of a glared context (R51), and what a lost or freed line brings about. -/

namespace Sys2Proof.Machine

/-- A line seized for a grant (R50 step 4, R61): its working set copied, SEIZE in its loop wait, the loop timer at
2 s. -/
def Line.toSeize (ln : Line) (c : CtxId) : Line :=
  { ln with
    state := .seize, dialToneWait := false, held := some c, working := ln.stored
    loopTimer := some Config.loopTimeoutMs }

/-- The grant of line `l` to context `c` (R50). -/
def State.grant (s : State) (c : CtxId) (l : LineId) : State :=
  let s1 := (s.setWaiting (s.waiting.remove c)).leaveFree l
  let s2 := s1.modCtx c fun x =>
    { x with
      state := .onLine, prevLine := x.lastLine, currentLine := some l, lastLine := some l
      attempts := x.attempts + 1 }
  let s3 := s2.modLine l fun ln => ln.toSeize c
  s3.queueProgressIfAsked c l .attemptStart

/-- Steps 1 and 2 of a pass (R48): the first waiting context whose mask names a free line, and the first free line
its mask names. -/
def State.firstPair (s : State) : Option (CtxId × LineId) :=
  s.waiting.all.findSome? fun c => (s.freeLines.find? fun l => maskNames (s.ctx c).mask l).map fun l => (c, l)

/-- The pairing pass (R48), at most `fuel` contexts served or refused; true tells that a granted line faulted at its
entry to SEIZE, so that a sweep is due once the pass is finished. -/
def State.passLoop : Nat → State → State × Bool
  | 0, s => (s, false)
  | fuel + 1, s =>
    match s.firstPair with
    | none => (s, false)
    | some (c, l) =>
      match s.admissionRefusal c with
      | some outcome => State.passLoop fuel (s.endContext c outcome)
      | none =>
        let (s1, lost) := (s.grant c l).seizeEntry l c
        let (s2, lostLater) := State.passLoop fuel s1
        (s2, lost || lostLater)

/-- One context of the sweep (R52): ended with NO_LINE when its mask names no usable line. -/
def State.sweepOne (s : State) (c : CtxId) : State :=
  if s.maskUsable (s.ctx c).mask then s else s.endContext c .noLine

/-- The sweep of the waiting list from head to tail (R52). -/
def State.sweep (s : State) : State := s.waiting.all.foldl State.sweepOne s

/-- The pairing pass that follows a change to either list (R48), made in RUNNING only. A sweep that a fault within the
pass calls for is the next change, taken when the pass is finished, and a pass follows it. -/
def State.pass (s : State) : State :=
  if s.ctl.engine = .running then
    match State.passLoop s.waiting.all.length s with
    | (s1, false) => s1
    | (s1, true) =>
      let s2 := s1.sweep
      (State.passLoop s2.waiting.all.length s2).1
  else s

/-- The whole fault step of an off-hook line, its sweep and pass with it (R77). -/
def State.faultAndSweep (s : State) (l : LineId) : State := (s.faultLine l).sweep.pass

/-- The line becomes IDLE and joins the free line list, or DISABLED when disable-pending is set (R35, R76, R95); the
sweep of a lost line follows at once. -/
def State.lineRests (s : State) (l : LineId) : State :=
  if (s.line l).disablePending then
    (s.modLine l fun ln => { ln with state := .disabled, disablePending := false }).sweep
  else (s.modLine l fun ln => { ln with state := .idle }).joinFree l

/-- A context whose attempt glare abandoned (R51): its attempt and last line given back, and it rejoins the head of its
class, or ends with WITHDRAWN while the engine winds down (R13). The pairing pass follows later. -/
def State.glareReturn (s : State) (c : CtxId) : State :=
  let s1 := s.modCtx c fun x =>
    { x with currentLine := none, attempts := x.attempts - 1, lastLine := x.prevLine }
  if s.windingDown then s1.endContext c .withdrawn
  else
    (s1.modCtx c fun x => { x with state := .pending }).setWaiting
      (s1.waiting.joinHead (s.ctx c).origin c)

/-- Steps 1 and 2 of glare on a line in SEIZE (R100). -/
def Line.toGlare (ln : Line) : Line :=
  { ln.disableClassifier with
    state := .ringing, dialToneWait := false, loopTimer := none, dialToneTimer := none, held := none
    ringGap := none, announced := false }

/-- Glare on line `l` (R100): the line rings, the context goes back, RING_IN in RUNNING; then the pairing pass
(log 13). -/
def State.glare (s : State) (l : LineId) : State :=
  let s1 := s.modLine l Line.toGlare
  let s2 : State :=
    match (s.line l).held with
    | some c => if (s.ctx c).state = .onLine then s1.glareReturn c else s1
    | none => s1
  let s3 : State :=
    if s.ctl.engine = .running then
      (s2.queueUnsolicited (.ringIn l)).modLine l fun ln => { ln with announced := true }
    else s2
  s3.pass

/-- A qualified ring on an IDLE or CLEARING line in RUNNING (R93). -/
def State.ringIn (s : State) (l : LineId) : State :=
  let s1 := s.leaveFree l
  let s2 := s1.modLine l fun ln => { ln with state := .ringing, clearGuard := none, ringGap := none }
  let s3 := s2.queueUnsolicited (.ringIn l)
  (s3.modLine l fun ln => { ln with announced := true }).pass

/-- A RINGING line answered for an accepted ACCEPT of context `c` (R97). -/
def Line.toAnswering (ln : Line) (c : CtxId) : Line :=
  { ln with
    state := .answering, ringGap := none, announced := false, working := ln.stored, held := some c
    loopTimer := some Config.loopTimeoutMs }

/-- The answering of line `l` (R97), the loop pattern judged as it stands. -/
def State.answerLine (s : State) (l : LineId) (c : CtxId) : State :=
  let s1 := s.modLine l fun ln => ln.toAnswering c
  match (s.line l).loopPattern with
  | .normal => s1.connectedInEntry l
  | .invalid => s1.faultAndSweep l
  | .noLoop | .reversed => s1

end Sys2Proof.Machine
end

