-- ==== Sys2Proof/Machine/Signal.lean ====
section
/-! DEFINITION. Signal moderation (R153, R154), the entry to HALTED (R166), the resets of the blocks (R163, R164). -/

namespace Sys2Proof.Machine

/-- A raise of SIG (R153). -/
def ReportWriter.raise (r : ReportWriter) : ReportWriter :=
  { r with sigPending := true, unsignalled := 0, holdTimer := .stopped }

/-- The hold timer started (R153). -/
def ReportWriter.startHold (r : ReportWriter) : ReportWriter := { r with holdTimer := .running r.holdTime }

/-- Signal moderation at step 5 of a post, the unsignalled count raised first (R153). -/
def ReportWriter.countPost (r : ReportWriter) (urgent : Bool) : ReportWriter :=
  let r1 := { r with unsignalled := satAdd Config.max8 r.unsignalled 1 }
  if r1.sigPending then
    if urgent then { r1 with holdTimer := .expired }
    else
      match r1.holdTimer with
      | .stopped => if r1.holdTime = 0 then { r1 with holdTimer := .expired } else r1.startHold
      | .running _ | .expired => r1
  else if urgent then r1.raise
  else if r1.batch ≤ r1.unsignalled then r1.raise
  else
    match r1.holdTimer with
    | .stopped => if r1.holdTime = 0 then r1.raise else r1.startHold
    | .running _ | .expired => r1

/-- The run-out of the hold timer (R153). -/
def ReportWriter.holdOut (r : ReportWriter) : ReportWriter :=
  match r.holdTimer with
  | .running _ => if r.sigPending then { r with holdTimer := .expired } else r.raise
  | .stopped | .expired => r

/-- The acknowledge (R154); in HALTED nothing raises SIG again (R155). -/
def ReportWriter.acknowledge (r : ReportWriter) (halted : Bool) : ReportWriter :=
  if r.sigPending then
    let r1 := { r with sigPending := false }
    if !halted && decide (0 < r1.unsignalled)
        && (decide (r1.holdTimer = .expired) || decide (r1.batch ≤ r1.unsignalled)) then r1.raise
    else r1
  else r

/-- The report writer at the entry to HALTED (R155). -/
def ReportWriter.halt (r : ReportWriter) : ReportWriter :=
  if r.sigPending then { r with holdTimer := .stopped } else r.raise

/-- A line at the entry to HALTED (R79, R96): every timer and qualifier stopped, the relay open, IDLE. -/
def Line.halt (ln : Line) : Line :=
  { ln.stopAttempt with
    state := .idle, held := none, disablePending := false, clearGuard := none, ringGap := none
    announced := false, loopQual := none, toneQual := none, ringQual := none }

/-- The entry to HALTED with its cause (R166). -/
def State.halt (s : State) (cause : ErrorCode) : State :=
  { s with
    ctl := { s.ctl with engine := .halted, error := cause }
    lines := s.lines.map Line.halt
    freeLines := s.freeLines ++ allLines.filter fun l => decide ((s.line l).state ≠ .idle)
    meters := Vector.replicate 8 none
    report := s.report.halt }

/-- The pattern that two levels of loop sense decode to (R60). -/
def patternOf (a b : Bool) : LoopPattern :=
  match a, b with
  | false, false => .noLoop
  | true, false => .normal
  | false, true => .reversed
  | true, true => .invalid

/-- The raw loop pattern of a line (R59). -/
def Line.rawPattern (ln : Line) : LoopPattern := patternOf ln.senseA ln.senseB

/-- The qualifiers begin to run at the end of a reset: an input that stands otherwise than its qualified value is
timed like any other change (R59, R92). -/
def Line.startQualifiers (ln : Line) : Line :=
  { ln with
    loopQual := if ln.rawPattern = ln.loopPattern then none else some ln.qualifyTime
    toneQual := if ln.toneRaw = ln.tonePresent then none else some ln.qualifyTime
    ringQual := if ln.ringRaw = ln.ringLevel then none else some Config.ringQualifyMs }

/-- Every block at its reset values, but for the retained domain (R163, R164); the raw inputs are pins and keep their
levels, shared memory is the host's. -/
def State.resetBlocks (s : State) (cause : ResetCause) : State :=
  { s with
    ctl := Control.atReset cause
    intake := Intake.initial
    ctxs := Vector.replicate 48 Context.cleared
    waiting := { urgent := [], routine := [] }
    freeLines := allLines
    lines := s.lines.map fun ln => Line.atReset ln.senseA ln.senseB ln.toneRaw ln.ringRaw
    schedule := []
    uptime := 0
    uptimeMs := 0
    meters := Vector.replicate 8 none
    report := ReportWriter.initial }

/-- The qualifiers of every line begin to run, once no reset is in force (R59, R92). -/
def State.endReset (s : State) : State :=
  if s.inReset then s else { s with lines := s.lines.map Line.startQualifiers }

/-- The reset cause (R163): POWER if main power has risen since the engine last reached READY, else the given one. -/
def State.causeOr (s : State) (cause : ResetCause) : ResetCause :=
  if s.power.roseSinceReady then .power else cause

/-- The engine enters READY; main power counts as risen no longer (R163). -/
def State.enterReady (s : State) : State :=
  { s with ctl := { s.ctl with engine := .ready }, power := { s.power with roseSinceReady := false } }

end Sys2Proof.Machine
end

