-- ==== Sys2Proof/Machine/Flags.lean ====
section
/-! DEFINITION. What the host and the lines see of the state: the registers (R156, R170), the pins (11.9), and the
conditions on which the engine returns to READY (R161, R162). -/

namespace Sys2Proof.Machine

/-- Codes of the engine states (R170). -/
def EngineState.code : EngineState → Nat
  | .checking => 0
  | .ready => 1
  | .running => 2
  | .draining => 3
  | .aborting => 4
  | .halted => 5

/-- Codes of the error codes (R170). -/
def ErrorCode.code : ErrorCode → Nat
  | .none => 0
  | .wrongState => 1
  | .badCommand => 2
  | .badSetup => 3
  | .memoryFault => 4
  | .badReportIndex => 5

/-- Codes of the reset causes (R170). -/
def ResetCause.code : ResetCause → Nat
  | .power => 0
  | .pin => 1
  | .soft => 2

/-- The five table statuses as five bits, prefix lowest (R170). -/
def TableStatus.bits (t : TableStatus) : Nat :=
  t.prefixes.toNat + 2 * t.bands.toNat + 4 * t.accounts.toNat + 8 * t.policies.toNat + 16 * t.calendar.toNat

/-- The STATE register as read (R156, R170). -/
def State.stateRegister (s : State) : Word :=
  BitVec.ofNat 32
    (s.ctl.engine.code + 16 * s.ctl.error.code + 256 * s.ctl.urgentFault.toNat + 512 * s.ctl.routineFault.toNat
      + 65536 * s.ctl.status.bits + 2097152 * s.retained.calendar.valid.toNat + 16777216 * s.ctl.cause.code)

/-- The SIG pin: high while the pending flag is set (R153). -/
def State.sigPin (s : State) : Bool := s.report.sigPending

/-- What a read of the register at an offset returns (R156): write-only registers read 0. A read changes nothing. -/
def State.readRegister (s : State) (offset : Nat) : Word :=
  if offset = 0 then s.stateRegister else if offset = 12 then (if s.sigPin then 1 else 0) else 0

/-- The seize relay drive SZ of a line: true closes it (R57). -/
def State.seizeRelay (s : State) (l : LineId) : Bool := (s.line l).state.offHook

/-- The digit-tone enable DE of a line (R57, R64). -/
def State.digitEnable (s : State) (l : LineId) : Bool := (s.line l).drive.isSome

/-- The digit code DC3 to DC0 of a line; 0 while the enable is off (R64, R172). -/
def State.digitCode (s : State) (l : LineId) : Nat :=
  match (s.line l).drive with
  | some k => k.val
  | none => 0

/-- Some context is active (R161). -/
def State.anyActive (s : State) : Bool := allContexts.any fun c => (s.ctx c).state.isActive

/-- The states that hold up the return from DRAINING (R161). -/
def LineState.outbound : LineState → Bool
  | .seize | .dialing | .awaitAnswer | .connected => true
  | .disabled | .idle | .fault | .ringing | .answering | .connectedIn | .clearing => false

/-- The drain condition (R161). -/
def State.drained (s : State) : Bool :=
  !s.anyActive && s.report.outbox.isEmpty && !allLines.any fun l => (s.line l).state.outbound

/-- The judgement of the drain condition in DRAINING (R161). -/
def State.judgeDrain (s : State) : State :=
  if s.ctl.engine = .draining ∧ s.drained then s.enterReady else s

/-- The judgement in ABORTING: the outbox is empty (R162). -/
def State.judgeAbort (s : State) : State :=
  if s.ctl.engine = .aborting ∧ s.report.outbox.isEmpty then s.enterReady else s

end Sys2Proof.Machine
end

