-- ==== Sys2Proof/Machine/Operands.lean ====
section
/-! DEFINITION. The fields of request records, from their bytes to what the part works on, with every range check
(R14, R16, R34, R36 to R40, R169, R172). -/

namespace Sys2Proof

open Machine

/-- A number below `n`, or absent. -/
def finOf (n : Nat) (k : Nat) : Option (Fin n) := if h : k < n then some ⟨k, h⟩ else none

/-- A byte coded 0 or 1 as a flag; any other code is out of range (R169). -/
def flagOf (b : Byte) : Option Bool := if b = 0 then some false else if b = 1 then some true else none

/-- A number lies in a range, both ends included. -/
def inRange (lo hi n : Nat) : Bool := decide (lo ≤ n) && decide (n ≤ hi)

/-- The signal-now flag, bit 0 of a flags byte (R172). -/
def signalNowFlag (flags : Byte) : Bool := flags.getLsbD 0

/-- The progress reports flag, bit 1 of a flags byte (R172). -/
def progressFlag (flags : Byte) : Bool := flags.getLsbD 1

/-- A digit symbol from its code (R172); above 0Dh out of range. -/
def symbolOf (b : Byte) : Option Symbol :=
  match finOf 12 b.toNat with
  | some k => some (.tone k)
  | none => if b = 0x0C then some .pause else if b = 0x0D then some .wait else none

/-- Every element mapped, or absent if one is. -/
def mapAll {α β : Type} (f : α → Option β) : List α → Option (List β)
  | [] => some []
  | a :: rest =>
    match f a, mapAll f rest with
    | some b, some bs => some (b :: bs)
    | _, _ => none

/-- The counted digits of a PLACE_CALL: 1 to 24 symbols, or absent (R2, R14 check 1). -/
def PlaceCallRec.symbols (rec : PlaceCallRec) : Option (List Symbol) :=
  if inRange 1 24 rec.digitCount.toNat then mapAll symbolOf (rec.digits.toList.take rec.digitCount.toNat) else none

/-- The account of a PLACE_CALL: 0 to 31, or absent (R2, R7). -/
def PlaceCallRec.accountId (rec : PlaceCallRec) : Option AccountId := finOf 32 rec.account.toNat

/-- The policy byte names NONE (R172). -/
def PlaceCallRec.namesNoPolicy (rec : PlaceCallRec) : Bool := decide (rec.policy = 0xFF)

/-- The policy index named, 0 to 7. -/
def PlaceCallRec.policyIndex (rec : PlaceCallRec) : Option (Fin 8) := finOf 8 rec.policy.toNat

/-- Check 1 of R14: every field of a PLACE_CALL lies in its range. -/
def PlaceCallRec.inRanges (rec : PlaceCallRec) : Bool :=
  rec.accountId.isSome && (rec.namesNoPolicy || rec.policyIndex.isSome)
    && (decide (rec.answerTimeout = 0) || inRange 10 180 rec.answerTimeout.toNat) && rec.symbols.isSome

/-- The line mask as stored: 0 stands for all eight lines (R2). -/
def storedMask (mask : Byte) : BitVec 8 := if mask = 0 then 0xFF else mask

/-- The line an ACCEPT names, L0 to L7, or absent (R16). -/
def AcceptRec.lineId (rec : AcceptRec) : Option LineId := finOf 8 rec.line.toNat

/-- The mask that names one line, or none (R2, R7). -/
def maskOf : Option LineId → BitVec 8
  | some l => BitVec.ofNat 8 (2 ^ l.val)
  | none => 0

/-- A SET_LINE's line, enable and parameters when every field lies in its range (R34). -/
def SetLineRec.settings (rec : SetLineRec) : Option (LineId × Bool × LineParams) :=
  match finOf 8 rec.line.toNat, flagOf rec.enable, flagOf rec.dialToneRequired with
  | some l, some enable, some required =>
    if inRange 16 96 rec.qualify.toNat && inRange 1 20 rec.seizeTimeout.toNat
        && inRange 10 180 rec.answerDefault.toNat && inRange 40 200 rec.toneTime.toNat
        && inRange 40 200 rec.gapTime.toNat && inRange 500 4000 rec.clearGuard.toNat then
      some (l, enable,
        { qualify := rec.qualify.toNat, seizeTimeout := rec.seizeTimeout.toNat,
          answerDefault := rec.answerDefault.toNat, toneTime := rec.toneTime.toNat,
          gapTime := rec.gapTime.toNat, dialToneRequired := required, clearGuard := rec.clearGuard.toNat })
    else none
  | _, _, _ => none

/-- A prefix class from its code: 0 to 14, or 0Fh for BARRED (R172). -/
def prefixClassOf (b : Byte) : Option PrefixClass :=
  match finOf 15 b.toNat with
  | some c => some (.tariff c)
  | none => if b = 0x0F then some .barred else none

/-- A LOAD_PREFIX's index and new entry (`none` marks it absent) when the fields that count lie in their ranges
(R36). -/
def LoadPrefixRec.entry (rec : LoadPrefixRec) : Option (Fin 64 × Option PrefixEntry) :=
  match finOf 64 rec.index.toNat, flagOf rec.present with
  | some i, some false => some (i, none)
  | some i, some true =>
    if inRange 1 12 rec.length.toNat then
      match mapAll (fun b : Byte => finOf 12 b.toNat) (rec.symbols.toList.take rec.length.toNat),
        prefixClassOf rec.cls with
      | some symbols, some cls => some (i, some { symbols := symbols, cls := cls })
      | _, _ => none
    else none
  | _, _ => none

/-- A day set from its code (R172). -/
def daySetOf (b : Byte) : Option DaySet :=
  if b = 0 then some .all else if b = 1 then some .workdays else if b = 2 then some .restdays else none

/-- A LOAD_BAND's class, band index and new band (`none` marks it absent) when the fields that count lie in their
ranges (R37). -/
def LoadBandRec.entry (rec : LoadBandRec) : Option (ClassId × Fin 4 × Option Band) :=
  match finOf 15 rec.cls.toNat, finOf 4 rec.band.toNat, flagOf rec.present with
  | some c, some i, some false => some (c, i, none)
  | some c, some i, some true =>
    match daySetOf rec.daySet with
    | some days =>
      if inRange 0 86399 rec.start.toNat && inRange 1 3600 rec.period.toNat then
        some (c, i, some
          { daySet := days, start := rec.start.toNat, period := rec.period.toNat,
            unitCharge := rec.unitCharge.toNat, setupCharge := rec.setupCharge.toNat })
      else none
    | none => none
  | _, _, _ => none

/-- A SET_POLICY's index and new entry (`none` marks it absent) when the fields that count lie in their ranges
(R38). -/
def SetPolicyRec.entry (rec : SetPolicyRec) : Option (Fin 8 × Option Policy) :=
  match finOf 8 rec.index.toNat, flagOf rec.present with
  | some i, some false => some (i, none)
  | some i, some true =>
    let intervals := (rec.intervals.toList.take rec.count.toNat).map BitVec.toNat
    if inRange 1 8 rec.limit.toNat && inRange 1 6 rec.count.toNat && intervals.all (inRange 5 3600)
        && decide (rec.outcomes.toNat < 32) then
      some (i, some
        { limit := rec.limit.toNat, intervals := intervals, outcomes := rec.outcomes.extractLsb' 0 5 })
    else none
  | _, _ => none

/-- A SET_CLOCK's second of day lies in 0 to 86399 (R40). -/
def SetClockRec.valid (rec : SetClockRec) : Bool := decide (rec.second.toNat ≤ 86399)

/-! ## The setup block (R159, R171) -/

/-- The ring sizes that are valid (R159). -/
def ringSizes : List Nat := [4, 8, 16, 32, 64, 128, 256]

/-- An address is 64-byte aligned (R159). -/
def aligned64 (a : Word) : Bool := decide (a.toNat % 64 = 0)

/-- The setup block that `rd` reads, when every field is valid (R159). -/
def setupOf (rd : Nat → Byte) : Option Setup :=
  let cls := rd 32
  let s : Setup :=
    { urgentBase := wordAt rd 0, routineBase := wordAt rd 4, reportBase := wordAt rd 8,
      urgentHeader := wordAt rd 12, routineHeader := wordAt rd 16, reportHeader := wordAt rd 20,
      urgentSize := (halfAt rd 24).toNat, routineSize := (halfAt rd 26).toNat,
      reportSize := (halfAt rd 28).toNat, holdTime := (rd 30).toNat, batch := (rd 31).toNat,
      defaultClass := finOf 15 cls.toNat, qualify := (rd 33).toNat }
  if aligned64 s.urgentBase && aligned64 s.routineBase && aligned64 s.reportBase
      && aligned64 s.urgentHeader && aligned64 s.routineHeader && aligned64 s.reportHeader
      && ringSizes.contains s.urgentSize && ringSizes.contains s.routineSize && ringSizes.contains s.reportSize
      && inRange 1 64 s.batch && (decide (cls.toNat < 15) || decide (cls = 0xFF)) && inRange 16 96 s.qualify then
    some s
  else none

end Sys2Proof
end

