-- ==== Sys2Proof/Machine/Control.lean ====
section
/-! DEFINITION. The control block at work: START (R159, R160) with the adoption of the rings (R25, R145), the order bits of
POST (R26, R27), the judgement of the REPORT bit (R149), QUIESCE and ABORT (R161, R162). -/

namespace Sys2Proof.Machine

/-! ## Ring faults and adoption -/

/-- The fault flag of ring `r` set (R27). -/
def Control.flagRing (k : Control) (r : OrderRing) : Control :=
  match r with
  | .urgent => { k with urgentFault := true }
  | .routine => { k with routineFault := true }

/-- Ring `r` becomes FAULTED (R27): its state, its flag in STATE, RING_FAULT queued. -/
def State.faultRing (s : State) (r : OrderRing) : State :=
  ((s.modRing r fun x => { x with state := .faulted }).modCtl fun k => k.flagRing r).queueUnsolicited (.ringFault r)

/-- The two indices stand further apart than the ring is long (R25, R27, R145). -/
def tooFarAhead (producer consumer : Half) (size : Nat) : Bool := decide (size < (producer - consumer).toNat)

/-- The base of ring `r` in the setup block. -/
def Setup.base (p : Setup) : OrderRing → Word
  | .urgent => p.urgentBase
  | .routine => p.routineBase

/-- The size of ring `r` in the setup block. -/
def Setup.size (p : Setup) : OrderRing → Nat
  | .urgent => p.urgentSize
  | .routine => p.routineSize

/-- The header address of ring `r` in the setup block. -/
def Setup.header (p : Setup) : OrderRing → Word
  | .urgent => p.urgentHeader
  | .routine => p.routineHeader

/-- Step 1 of R25: base, size and header address of ring `r` from the setup block. -/
def State.placeRing (s : State) (p : Setup) (r : OrderRing) : State :=
  s.modRing r fun x => { x with base := p.base r, size := p.size r, header := p.header r }

/-- Steps 2 and 3 of R25: both indices read from the header and judged. -/
def State.adoptRing (s : State) (r : OrderRing) : State :=
  let x := s.ring r
  let producer := s.readProducer x.header
  let consumer := s.readConsumer x.header
  let s1 := s.setRing r { x with cachedProducer := producer, consumer := consumer }
  if tooFarAhead producer consumer x.size then s1.faultRing r
  else s1.modRing r fun y => { y with state := if producer = consumer then .empty else .active }

/-- The order rings adopted one after another (R25), then RUNNING (R160 step 6); the read of a header may halt the part. DESIGN
CHOICE (log 28): the ring whose header cannot be read then keeps both its indices, its state and held reason, and the streak
counter, which is set to 0 behind both adoptions, keeps its value; R25 and R166 do not say what they hold. -/
def State.adoptOrderRings (p : Setup) (bus : StartBus) : List OrderRing → State → State
  | [], s => (s.setStreak 0).modCtl fun k => { k with engine := .running, error := .none }
  | r :: rest, s =>
    if bus = .orderHeader r then (s.placeRing p r).halt .memoryFault
    else State.adoptOrderRings p bus rest ((s.placeRing p r).adoptRing r)

/-! ## START (R159, R160) -/

/-- Step 1 of R160: the setup parameters copied; SIG is raised when the kept count has reached the new batch count (R155). -/
def State.copySetup (s : State) (p : Setup) : State :=
  let r1 := { s.report with holdTime := p.holdTime, batch := p.batch }
  { s with
    ctl := { s.ctl with setup := p }
    lines := s.lines.map fun ln => { ln with stored := { ln.stored with qualify := p.qualify } }
    report := if !r1.sigPending && decide (r1.batch ≤ r1.unsignalled) then r1.raise else r1 }

/-- The geometry of the report ring set from the setup block (R145). -/
def State.placeReportRing (s : State) (p : Setup) : State :=
  s.modReport fun r => { r with base := p.reportBase, size := p.reportSize, header := p.reportHeader }

/-- Both indices of the report ring read from its header (R145). -/
def State.readReportIndices (s : State) : State :=
  s.modReport fun r =>
    { r with producer := s.readProducer s.report.header, cachedConsumer := s.readConsumer s.report.header }

/-- STARTED, as STATE shows the cause, the statuses and the validity (R151, R160 step 4). -/
def State.startedReport (s : State) : UnsolicitedKind :=
  .started s.ctl.cause s.ctl.status s.retained.calendar.valid

/-- Steps 3 to 6 of R160, once the report ring is adopted. -/
def State.startRun (s : State) (p : Setup) (first : OrderRing) (bus : StartBus) : State :=
  let s1 := s.modReport fun r => { r with adopted := true }
  let s2 := s1.modCtl fun k => { k with urgentFault := false, routineFault := false }
  State.adoptOrderRings p bus [first, otherRing first] (s2.queueUnsolicited s2.startedReport)

/-- An accepted START (R160). DESIGN CHOICE (log 28): after a bus error on a read of the report ring's header both of its indices
keep their old values, whichever of the two reads failed; R145 and R166 do not say what they then hold. -/
def State.startAccepted (s : State) (p : Setup) (first : OrderRing) (bus : StartBus) : State :=
  let s1 := (s.copySetup p).placeReportRing p
  if bus = .reportHeader then s1.halt .memoryFault
  else
    let s2 := s1.readReportIndices
    if tooFarAhead s2.report.producer s2.report.cachedConsumer s2.report.size then s2.halt .badReportIndex
    else s2.startRun p first bus

/-- START in READY (R159): the address judged, the block read and checked. -/
def State.startInReady (s : State) (first : OrderRing) (bus : StartBus) : State :=
  if aligned64 s.ctl.setupAddr then
    if bus = .setupBlock then s.halt .memoryFault
    else
      match setupOf (s.readAt s.ctl.setupAddr) with
      | none => s.setError .badSetup
      | some p => s.startAccepted p first bus
  else s.setError .badSetup

/-- START against the engine state (R158). -/
def State.takeStart (s : State) (first : OrderRing) (bus : StartBus) : State :=
  match s.ctl.engine with
  | .ready => s.startInReady first bus
  | .halted => s
  | .checking | .running | .draining | .aborting => s.setError .wrongState

/-! ## QUIESCE and ABORT (R21, R161, R162) -/

/-- The contexts that satisfy `which` ended in ascending context number (R21). -/
def State.endEach (s : State) (which : CtxState → Bool) (outcome : CallOutcome) : State :=
  allContexts.foldl (fun t c => if which (t.ctx c).state then t.endContext c outcome else t) s

/-- PENDING or RETRY_WAIT (R21). -/
def CtxState.isWaiting : CtxState → Bool
  | .pending | .retryWait => true
  | .free | .onLine | .ended => false

/-- QUIESCE against the engine state (R158, R161). -/
def State.takeQuiesce (s : State) : State :=
  match s.ctl.engine with
  | .running =>
    let s1 := s.modCtl fun k => { k with engine := .draining, error := .none }
    (s1.endEach CtxState.isWaiting .withdrawn).judgeDrain
  | .halted => s
  | .checking | .ready | .draining | .aborting => s.setError .wrongState

/-- ABORT against the engine state (R158, R162). -/
def State.takeAbort (s : State) : State :=
  match s.ctl.engine with
  | .running | .draining =>
    let s1 := s.modCtl fun k => { k with engine := .aborting, error := .none }
    (s1.endEach CtxState.isActive .aborted).judgeAbort
  | .halted => s
  | .checking | .ready | .aborting => s.setError .wrongState

/-- A CONTROL write that names no command, or more than one (R157). -/
def State.takeBadCommand (s : State) : State := if s.ctl.engine = .halted then s else s.setError .badCommand

/-! ## POST (R26, R149) -/

/-- The producer index read on a POST bit and judged (R26). -/
def State.judgePost (s : State) (r : OrderRing) : State :=
  let x := s.ring r
  let producer := s.readProducer x.header
  if tooFarAhead producer x.consumer x.size then s.faultRing r
  else
    s.setRing r
      { x with
        cachedProducer := producer
        state := if x.state = .empty ∧ producer ≠ x.consumer then .active else x.state }

/-- An order bit of POST (R26). -/
def State.takeOrderPost (s : State) (r : OrderRing) (busError : Bool) : State :=
  if s.ctl.engine = .running ∧ (s.ring r).state ≠ .faulted then
    if busError then s.halt .memoryFault else s.judgePost r
  else s

/-- Engine states in which reports are posted and the REPORT bit acts (R149, R155). -/
def EngineState.posts : EngineState → Bool
  | .ready | .running | .draining | .aborting => true
  | .checking | .halted => false

/-- A consumer index is accepted (R149). -/
def ReportWriter.accepts (r : ReportWriter) (consumer : Half) : Bool :=
  decide ((r.producer - consumer).toNat ≤ (r.producer - r.cachedConsumer).toNat)

/-- The REPORT bit of POST (R149). -/
def State.takeReportBit (s : State) (busError : Bool) : State :=
  if s.ctl.engine.posts && s.report.adopted then
    if busError then s.halt .memoryFault
    else
      let consumer := s.readConsumer s.report.header
      if s.report.accepts consumer then s.modReport fun r => { r with cachedConsumer := consumer }
      else s.halt .badReportIndex
  else s

end Sys2Proof.Machine
end

