-- ==== Sys2Proof/Machine/ReportFormat.lean ====
section
/-! DEFINITION. The report records as 64 bytes (R169, R173). -/

namespace Sys2Proof.Machine

/-- Codes of the outcomes (R173). -/
def CallOutcome.code : CallOutcome → Byte
  | .completedNear => 0x01
  | .completedFar => 0x02
  | .busy => 0x03
  | .noAnswer => 0x04
  | .congestion => 0x05
  | .noDialtone => 0x06
  | .noLoop => 0x07
  | .lineLost => 0x08
  | .lineFault => 0x09
  | .barred => 0x0A
  | .noTariff => 0x0B
  | .noLine => 0x0C
  | .badRequest => 0x0D
  | .duplicateTag => 0x0E
  | .notRinging => 0x0F
  | .limitReached => 0x10
  | .accountSuspended => 0x11
  | .durationLimit => 0x12
  | .cancelled => 0x13
  | .withdrawn => 0x14
  | .aborted => 0x15

/-- A number as one byte. -/
def byteOf (n : Nat) : Byte := BitVec.ofNat 8 n

/-- A number as a two-byte field. -/
def half16 (n : Nat) : List Byte := halfBytes (BitVec.ofNat 16 n)

/-- A number as a four-byte field. -/
def word32 (n : Nat) : List Byte := wordBytes (BitVec.ofNat 32 n)

/-- A one-byte line, ring, account or class, FFh when absent (R169). -/
def byteOrAbsent {n : Nat} : Option (Fin n) → Byte
  | some k => byteOf k.val
  | none => 0xFF

/-- URGENT 0, ROUTINE 1 (R173). -/
def OrderRing.code : OrderRing → Byte
  | .urgent => 0
  | .routine => 1

/-- A flag as a byte. -/
def flagByte (b : Bool) : Byte := if b then 1 else 0

/-- The four bytes every report opens with (R173). DESIGN CHOICE (log 25): bits 1 to 7 of byte 1, which R173 does not
assign, are written as 0. -/
def reportHead (kind : Byte) (urgent : Bool) (tag : Half) : List Byte := [kind, flagByte urgent] ++ halfBytes tag

/-- A record filled to 64 bytes with zeros (R169). -/
def pad64 (bytes : List Byte) : List Byte := bytes ++ List.replicate (64 - bytes.length) 0

/-- The stamp fields of a CALL_END, absent as day 0 and second FFFFFFFFh (R169). -/
def stampBytes : Option Stamp → List Byte
  | some t => halfBytes t.day ++ [0, 0] ++ word32 t.second
  | none => [0, 0, 0, 0, 0xFF, 0xFF, 0xFF, 0xFF]

/-- A CALL_END record (R173). -/
def CallEnd.bytes (e : CallEnd) (urgent : Bool) : List Byte :=
  pad64 (reportHead 0x01 urgent e.tag
    ++ [e.outcome.code, match e.direction with | .outbound => 0 | .inbound => 1, OrderRing.code e.origin,
        byteOrAbsent e.line, byteOf e.attempts, byteOrAbsent e.account, byteOrAbsent e.tariff, byteOf e.drops]
    ++ stampBytes e.stamp ++ word32 e.connectedSeconds ++ half16 e.units ++ [0, 0] ++ word32 e.charge)

/-- Codes of the REQUEST_DONE statuses (R173). -/
def DoneStatus.code : DoneStatus → Byte
  | .done => 0
  | .badRequest => 1
  | .noSuchTag => 2
  | .tooLate => 3
  | .notConnected => 4

/-- A REQUEST_DONE record (R173). -/
def DoneRecord.bytes (d : DoneRecord) (urgent : Bool) : List Byte :=
  pad64 (reportHead 0x02 urgent d.tag ++ [d.kind, d.status.code]
    ++ match d.data with
      | some (n, a) =>
        [1, 0, byteOf n.val, flagByte a.suspended, flagByte a.limited, byteOf a.active] ++ word32 a.limit
          ++ word32 a.total ++ halfBytes a.completed
      | none => [0, 0])

/-- Codes of the PROGRESS subkinds (R173). -/
def ProgressKind.code : ProgressKind → Byte
  | .attemptStart => 1
  | .ringing => 2
  | .answered => 3
  | .attemptFailed .. => 4
  | .limitWarning _ => 5

/-- The failure outcome byte and the data of a PROGRESS report (R173). -/
def ProgressKind.tail : ProgressKind → List Byte
  | .attemptFailed failure interval => [failure.code] ++ word32 interval
  | .limitWarning room => [0] ++ word32 room
  | .attemptStart | .ringing | .answered => [0] ++ word32 0

/-- A PROGRESS record (R173). -/
def ProgressRecord.bytes (p : ProgressRecord) (urgent : Bool) : List Byte :=
  pad64 (reportHead 0x03 urgent p.tag ++ [p.kind.code, byteOf p.line.val, byteOf p.attempts] ++ p.kind.tail)

/-- Subkind, line and ring of an UNSOLICITED report, FFh where it names none (R151, R169, R173). -/
def UnsolicitedKind.head : UnsolicitedKind → List Byte
  | .started .. => [1, 0xFF, 0xFF]
  | .ringIn l => [2, byteOf l.val, 0xFF]
  | .ringGone l => [3, byteOf l.val, 0xFF]
  | .lineFault l => [4, byteOf l.val, 0xFF]
  | .ringFault r => [5, 0xFF, OrderRing.code r]

/-- The further content of STARTED (R151, R173). DESIGN CHOICE (log 25): bits 5 to 7 of the table status byte, which R173
does not assign, are written as 0. -/
def UnsolicitedKind.tail : UnsolicitedKind → List Byte
  | .started cause status valid => [byteOf cause.code, byteOf status.bits, flagByte valid]
  | .ringIn _ | .ringGone _ | .lineFault _ | .ringFault _ => []

/-- An UNSOLICITED record, its missed count filled in at posting (R151, R173). -/
def UnsolicitedRecord.bytes (u : UnsolicitedRecord) (missed : Nat) (urgent : Bool) : List Byte :=
  pad64 (reportHead 0x04 urgent 0 ++ u.kind.head ++ [byteOf missed] ++ halfBytes u.stamp.day ++ [0, 0]
    ++ word32 u.stamp.second ++ u.kind.tail)

/-- The record written for an outbox entry (R148 step 1). A context reference writes the CALL_END its context keeps. -/
def State.entryBytes (s : State) (e : OutboxEntry) : List Byte :=
  match e.body with
  | .callEnd c =>
    match (s.ctx c).record with
    | some r => r.bytes e.urgent
    | none => pad64 []
  | .done d => d.bytes e.urgent
  | .progress p => p.bytes e.urgent
  | .unsolicited u => u.bytes s.report.missed e.urgent

end Sys2Proof.Machine
end

