-- ==== Sys2Proof/Machine/Posting.lean ====
section
/-! DEFINITION. The posting of the outbox's head (R148), and what a post frees (R12, R29, R151). -/

namespace Sys2Proof.Machine

/-- A ring HELD for the resource becomes ACTIVE (R29). -/
def Ring.released (x : Ring) (need : Need) : Ring := if x.state = .held need then { x with state := .active } else x

/-- Intake told that a resource has freed (R29). -/
def State.releaseRings (s : State) (need : Need) : State :=
  (s.modRing .urgent fun x => x.released need).modRing .routine fun x => x.released need

/-- What step 4 of a post frees (R148): an ENDED context (R12), a done slot, or the missed count (R151). -/
def State.freeEntry (s : State) (body : EntryBody) : State :=
  match body with
  | .callEnd c =>
    if (s.ctx c).state = .ended then (s.modCtx c fun _ => Context.cleared).releaseRings .context else s
  | .done _ => s.releaseRings .doneSlot
  | .progress _ => s
  | .unsolicited _ => s.modReport fun r => { r with missed := 0 }

/-- The report ring is full (R148). -/
def ReportWriter.isFull (r : ReportWriter) : Bool := decide ((r.producer - r.cachedConsumer).toNat = r.size)

/-- The address of the slot of the producer index (R145). -/
def ReportWriter.slot (r : ReportWriter) : Word := slotAddr r.base r.size r.producer

/-- Posting goes on (R148, R155): the ring adopted, the engine in a state that posts, room in the ring. -/
def State.mayPost (s : State) : Bool := s.ctl.engine.posts && s.report.adopted && !s.report.isFull

/-- Steps 4 and 5 of a post (R148), and the judgements of R161 and R162 that follow it. -/
def State.finishPost (s : State) (e : OutboxEntry) (rest : List OutboxEntry) : State :=
  let s1 := (s.modReport fun r => { r with outbox := rest }).freeEntry e.body
  (s1.modReport fun r => r.countPost e.urgent).judgeDrain.judgeAbort

/-- The write of the record for `e` broken off, by a bus error (R148) or by a power-on reset (R163): only the bytes that
`landed` names stand in the slot. DESIGN CHOICE (logs 19, 24): the spec does not say what the slot then holds. -/
def State.writePart (s : State) (e : OutboxEntry) (landed : BitVec 64) : State :=
  s.storeCells s.report.slot (landedCells landed (s.entryBytes e))

/-- Steps 1 and 2 of a post of the entry `e` (R148): the record in its slot, the producer index raised. -/
def State.writeRecord (s : State) (e : OutboxEntry) : State :=
  (s.storeCells s.report.slot (cellsAt 0 (s.entryBytes e))).modReport fun r => { r with producer := r.producer + 1 }

/-- A post of the entry `e` at the head of the outbox, `rest` behind it (R148). -/
def State.postEntry (s : State) (e : OutboxEntry) (rest : List OutboxEntry) (bus : PostBus) : State :=
  match bus with
  | .recordError landed => (s.writePart e landed).halt .memoryFault
  | .indexError => (s.writeRecord e).halt .memoryFault
  | .ok =>
    let s1 := s.writeRecord e
    (s1.writeProducer s1.report.header s1.report.producer).finishPost e rest

/-- A post, when there is an entry and room for it (R148). -/
def State.takePost (s : State) (bus : PostBus) : State :=
  match s.report.outbox with
  | [] => s
  | e :: rest => if s.mayPost then s.postEntry e rest bus else s

end Sys2Proof.Machine
end

