-- ==== Sys2Proof/Machine/Resets.lean ====
section
/-! DEFINITION. The three resets (R163), the check of the retained tables (R164, R165), the loss of the battery. -/

namespace Sys2Proof.Machine

/-- Both supplies are lost (R163): what the retained memory then holds is a free value (log 14). -/
def State.loseContent (s : State) : State := { s with retained := Config.lostRetained s.seed, seed := s.seed + 1 }

/-- A write into the table can be in progress: into the calendar by its advance at any time (R123), into any other only
outside a reset. -/
def State.writesTable (s : State) (which : RetainedTable) : Bool := decide (which = .calendar) || !s.inReset

/-- What the access that a power-on reset cuts has left behind (R163, R41, log 19): part of the record of a post that can be
in progress, or one retained table as a free value. An access that cannot be in progress leaves nothing. -/
def State.cutBy (s : State) : PowerCut → State
  | .nothing => s
  | .record landed =>
    match s.report.outbox with
    | [] => s
    | e :: _ => if s.mayPost then s.writePart e landed else s
  | .table which =>
    if s.writesTable which then
      { s with retained := s.retained.cutTable (Config.lostRetained s.seed) which, seed := s.seed + 1 }
    else s

/-- A power-on reset begins (R163): the access in progress is cut, every block takes its reset values, and the 20 ms run
while VDD stands above its threshold. A rise is recorded as main power having risen. -/
def State.beginPowerReset (s : State) (vdd : VddCrossing) : State :=
  let s1 := (s.cutBy vdd.cut).resetBlocks (if vdd.above then .power else s.ctl.cause)
  { s1 with
    power :=
      { s.power with
        powerReset := true, vddAbove := vdd.above
        stableLeft := if vdd.above then some Config.powerStableMs else none
        roseSinceReady := s.power.roseSinceReady || vdd.above } }

/-- Main supply VDD crosses its reset threshold (R163). A fall without a battery loses the retained content. -/
def State.powerCrosses (s : State) (vdd : VddCrossing) : State :=
  if vdd.above || s.power.vbatPresent then s.beginPowerReset vdd else (s.beginPowerReset vdd).loseContent

/-- VDD has stayed above its threshold for 20 ms and the power-on reset ends (R163). -/
def State.powerStable (s : State) : State :=
  if s.power.powerReset ∧ s.power.vddAbove then
    ({ s with power := { s.power with powerReset := false, stableLeft := none } }).endReset
  else s

/-- The RESETn pin is driven low (R163). -/
def State.resetnFalls (s : State) : State :=
  let s1 := s.resetBlocks (s.causeOr .pin)
  { s1 with power := { s.power with resetnLow := true } }

/-- The RESETn pin returns high (R163). -/
def State.resetnRises (s : State) : State :=
  if s.power.resetnLow then ({ s with power := { s.power with resetnLow := false } }).endReset else s

/-- A soft reset, which ends at once (R163). -/
def State.softReset (s : State) : State := (s.resetBlocks (s.causeOr .soft)).endReset

/-- The check of the retained tables is finished (R164, R165): statuses set, active counts cleared, READY. -/
def State.checkDone (s : State) : State :=
  if s.ctl.engine = .checking ∧ s.inReset = false then
    let (t, status) := s.retained.checked
    (({ s with retained := t }).modCtl fun k => { k with status := status }).enterReady
  else s

/-- VBAT is absent (R163): from then on main power alone holds the retained domain. With VDD below its threshold the
content is lost at once, otherwise at the next fall of VDD. No command brings the battery back (log 14). -/
def State.batteryLost (s : State) : State :=
  let s1 := { s with power := { s.power with vbatPresent := false } }
  if s.power.vddAbove then s1 else s1.loseContent

end Sys2Proof.Machine
end

