-- ==== Sys2Proof/Machine/ExecControl.lean ====
section
/-! DEFINITION. The meanings of the commands of the control block: the writes to the registers (R156, R157), the resets and
supplies (R163), the check of the retained tables (R164), the posting of reports (R148). -/

namespace Sys2Proof.Machine

/-- A register write, which has no effect while a reset is in force (R163). -/
def State.registerWrite (s : State) (effect : State → State) : State := if s.inReset then s else effect s

/-- START (R158 to R160). The host's stores made before it come with it (log 11). -/
def execStart (stores : HostStores) (first : OrderRing) (bus : StartBus) (s : State) :
    Host.Outcome State Fault Refusal :=
  .next ((s.hostStores stores).registerWrite fun t => t.takeStart first bus)

/-- QUIESCE (R158, R161). -/
def execQuiesce (s : State) : Host.Outcome State Fault Refusal := .next (s.registerWrite State.takeQuiesce)

/-- ABORT (R158, R162). -/
def execAbort (s : State) : Host.Outcome State Fault Refusal := .next (s.registerWrite State.takeAbort)

/-- CONTROL written with RESET (R157, R163). -/
def execReset (s : State) : Host.Outcome State Fault Refusal := .next (s.registerWrite State.softReset)

/-- A CONTROL write that names no command, or more than one (R157). -/
def execBadCommand (_value : Word) (s : State) : Host.Outcome State Fault Refusal :=
  .next (s.registerWrite State.takeBadCommand)

/-- The URGENT or ROUTINE bit of POST (R26). -/
def execOrderRingPost (stores : HostStores) (r : OrderRing) (busError : Bool) (s : State) :
    Host.Outcome State Fault Refusal :=
  .next ((s.hostStores stores).registerWrite fun t => t.takeOrderPost r busError)

/-- The REPORT bit of POST (R149). -/
def execReportPostBit (stores : HostStores) (busError : Bool) (s : State) : Host.Outcome State Fault Refusal :=
  .next ((s.hostStores stores).registerWrite fun t => t.takeReportBit busError)

/-- A write to SIGNAL (R154, R155). -/
def execSignalAcknowledge (s : State) : Host.Outcome State Fault Refusal :=
  .next (s.registerWrite fun t => t.modReport fun r => r.acknowledge (decide (t.ctl.engine = .halted)))

/-- A write to SETUP_ADDR (R156), stored in every engine state. -/
def execSetupAddrWrite (value : Word) (s : State) : Host.Outcome State Fault Refusal :=
  .next (s.registerWrite fun t => t.modCtl fun k => { k with setupAddr := value })

/-- A write to a read-only register has no effect (R156). -/
def execReadOnlyRegisterWrite (_value : Word) (s : State) : Host.Outcome State Fault Refusal := .next s

/-- VDD crosses its reset threshold (R163), and cuts what access is in progress. -/
def execPowerOnReset (vdd : VddCrossing) (s : State) : Host.Outcome State Fault Refusal := .next (s.powerCrosses vdd)

/-- VDD has stayed above the threshold for 20 ms (R163). -/
def execPowerOnResetEnd (s : State) : Host.Outcome State Fault Refusal := .next s.powerStable

/-- RESETn is driven low (R163). -/
def execResetnAssert (s : State) : Host.Outcome State Fault Refusal := .next s.resetnFalls

/-- RESETn returns high (R163). -/
def execResetnRelease (s : State) : Host.Outcome State Fault Refusal := .next s.resetnRises

/-- The check in CHECKING is finished (R164). -/
def execRetainedCheckDone (s : State) : Host.Outcome State Fault Refusal := .next s.checkDone

/-- VBAT is lost (R163). -/
def execVbatLoss (s : State) : Host.Outcome State Fault Refusal := .next s.batteryLost

/-- The report writer posts the head of its outbox (R148). -/
def execReportPost (bus : PostBus) (s : State) : Host.Outcome State Fault Refusal := .next (s.takePost bus)

end Sys2Proof.Machine
end

