-- ==== Sys2Proof/Machine/LineEvents.lean ====
section
/-! DEFINITION. What happens at a line: its raw inputs and qualifiers (R59, R92), a changed loop pattern (R60), a
qualified ring (R94), the run-out of its timers, a classifier report (R90). -/

namespace Sys2Proof.Machine

/-- The line controllers and their qualifiers run: no reset is in force and the engine is not HALTED (R59, R79, R92). -/
def State.linesRun (s : State) : Bool := !s.inReset && decide (s.ctl.engine ≠ .halted)

/-- A happening at a line, which HALTED and a reset keep from arising; the drain condition is judged after it (R161). -/
def State.atLine (s : State) (happening : State → State) : State :=
  if s.linesRun then (happening s).judgeDrain else s

/-! ## Raw inputs (R59, R92) -/

/-- A qualifier's timing after its raw input moved from `before` to `now`, the qualified value standing at `qualified`
(R59): unchanged input, kept; back at the qualified value, stopped; another value, timed afresh. -/
def retime {α : Type} [DecidableEq α] (before now qualified : α) (timing : Option Nat) (time : Nat) : Option Nat :=
  if now = before then timing else if now = qualified then none else some time

/-- The loop sense inputs take new levels (R59). -/
def Line.senseChange (ln : Line) (a b runs : Bool) : Line :=
  { ln with
    senseA := a, senseB := b
    loopQual :=
      if runs then retime ln.rawPattern (patternOf a b) ln.loopPattern ln.loopQual ln.qualifyTime else ln.loopQual }

/-- The tone energy input takes a new level (R59). -/
def Line.toneChange (ln : Line) (present runs : Bool) : Line :=
  { ln with
    toneRaw := present
    toneQual := if runs then retime ln.toneRaw present ln.tonePresent ln.toneQual ln.qualifyTime else ln.toneQual }

/-- The ring detect input takes a new level (R92). -/
def Line.ringChange (ln : Line) (active runs : Bool) : Line :=
  { ln with
    ringRaw := active
    ringQual :=
      if runs then retime ln.ringRaw active ln.ringLevel ln.ringQual Config.ringQualifyMs else ln.ringQual }

/-! ## A qualified loop pattern (R60) -/

/-- The far-clear timer after a change of the qualified pattern of a connected line (R72). -/
def farClearAfter : LoopPattern → Option Nat
  | .normal | .noLoop => some Config.farClearMs
  | .reversed | .invalid => none

/-- What a line does at a change of its qualified loop pattern to `p`, already kept (R60 and the rules it names). -/
def State.patternChanged (s : State) (l : LineId) (p : LoopPattern) : State :=
  let ln := s.line l
  if ln.state.offHook ∧ p = .invalid then s.faultAndSweep l
  else
    match ln.state with
    | .seize =>
      match ln.held with
      | some c => if p = .normal ∧ ln.dialToneWait = false then s.loopWaitEnd l c else s
      | none => s
    | .awaitAnswer => if p = .reversed then s.answer l else s
    | .connected | .connectedIn => s.modLine l fun x => { x with farClearTimer := farClearAfter p }
    | .answering => if p = .normal then s.connectedInEntry l else s
    | .dialing | .idle | .clearing | .ringing | .disabled | .fault => s

/-- The raw pattern has held for the qualify time (R59, R60); nothing while the qualifier is not timing. -/
def State.qualifyPattern (s : State) (l : LineId) : State :=
  if (s.line l).loopQual.isSome then
    let p := (s.line l).rawPattern
    (s.modLine l fun x => { x with loopPattern := p, loopQual := none }).patternChanged l p
  else s

/-- The tone energy has held at its new level for the qualify time (R59, R83). -/
def State.qualifyTone (s : State) (l : LineId) : State :=
  if (s.line l).toneQual.isSome then
    s.modLine l fun x => Line.toneChanged { x with tonePresent := x.toneRaw, toneQual := none } x.toneRaw
  else s

/-! ## Rings (R92 to R95, R100) -/

/-- The effect of a qualified ring (R94). -/
def State.ringArrives (s : State) (l : LineId) : State :=
  match (s.line l).state with
  | .seize => s.glare l
  | .ringing => s.modLine l fun x => { x with ringGap := none }
  | .idle | .clearing => if s.ctl.engine = .running then s.ringIn l else s
  | .dialing | .awaitAnswer | .connected | .answering | .connectedIn | .disabled | .fault => s

/-- The ring detect input has held active for 200 ms (R92). -/
def State.qualifyRing (s : State) (l : LineId) : State :=
  if (s.line l).ringQual.isSome ∧ (s.line l).ringRaw ∧ (s.line l).ringLevel = false then
    (s.modLine l fun x => { x with ringLevel := true, ringQual := none }).ringArrives l
  else s

/-- The ring level returns to QUIET (R92); on a RINGING line the ring gap timer starts (R95). -/
def Line.ringQuiet (ln : Line) : Line :=
  { ln with
    ringLevel := false, ringQual := none
    ringGap := if ln.state = .ringing then some Config.ringGapMs else ln.ringGap }

/-- The ring detect input has held inactive for 200 ms (R92). -/
def State.qualifyQuiet (s : State) (l : LineId) : State :=
  if (s.line l).ringQual.isSome ∧ (s.line l).ringRaw = false ∧ (s.line l).ringLevel then s.modLine l Line.ringQuiet
  else s

/-- The ring gap timer runs out (R95): the line rests, RING_GONE for an announced line, the pairing pass (log 13). -/
def State.ringGapOut (s : State) (l : LineId) : State :=
  if (s.line l).state = .ringing ∧ (s.line l).ringGap.isSome then
    let s1 := (s.modLine l fun x => { x with ringGap := none }).lineRests l
    let s2 := if (s.line l).announced then s1.queueUnsolicited (.ringGone l) else s1
    (s2.modLine l fun x => { x with announced := false }).pass
  else s

/-! ## Timers -/

/-- The loop timer runs out (R61, R98). -/
def State.loopTimerOut (s : State) (l : LineId) : State :=
  if (s.line l).loopTimer.isSome then s.endOnLine l .noLoop else s

/-- The dial-tone timer runs out (R62, R66). -/
def State.dialToneTimerOut (s : State) (l : LineId) : State :=
  if (s.line l).dialToneTimer.isSome then s.endOnLine l .noDialtone else s

/-- The digit timer runs out (R64). -/
def State.digitTimerRunsOut (s : State) (l : LineId) : State :=
  if (s.line l).digitTimer.isSome then s.digitTimerOut l else s

/-- The pause timer runs out and the P symbol is finished (R65). -/
def State.pauseTimerOut (s : State) (l : LineId) : State :=
  if (s.line l).pauseTimer.isSome then (s.modLine l fun x => { x with pauseTimer := none }).finishSymbol l else s

/-- The answer timer runs out (R68). -/
def State.answerTimerOut (s : State) (l : LineId) : State :=
  if (s.line l).answerTimer.isSome then s.endOnLine l .noAnswer else s

/-- The max-duration timer runs out (R70). -/
def State.maxDurationOut (s : State) (l : LineId) : State :=
  if (s.line l).maxDurationTimer.isSome then s.endOnLine l .durationLimit else s

/-- The far-clear timer runs out (R72): it runs only while the qualified pattern is NORMAL or NO_LOOP. -/
def State.farClearOut (s : State) (l : LineId) : State :=
  if (s.line l).farClearTimer.isSome then
    match (s.line l).loopPattern with
    | .normal => s.endOnLine l .completedFar
    | .noLoop => s.endOnLine l .lineLost
    | .reversed | .invalid => s
  else s

/-- The clear guard runs out (R76). -/
def State.clearGuardOut (s : State) (l : LineId) : State :=
  if (s.line l).state = .clearing ∧ (s.line l).clearGuard.isSome then
    ((s.modLine l fun x => { x with clearGuard := none }).lineRests l).pass
  else s

/-! ## Classifier reports (R90) -/

/-- A RINGING progress report for the context held by line `l` (R68). -/
def State.ringingHeard (s : State) (l : LineId) : State :=
  match (s.line l).held with
  | some c => s.queueProgressIfAsked c l .ringing
  | none => s

/-- What the line controller does with a class reported in the present enabled period (R62, R66, R68, R90). -/
def State.classTaken (s : State) (l : LineId) (cls : ToneClass) : State :=
  let ln := s.line l
  match ln.state with
  | .seize => if ln.dialToneWait ∧ cls = .dial then s.dialToneHeard l else s
  | .dialing => if ln.dialToneTimer.isSome ∧ cls = .dial then s.dialToneHeard l else s
  | .awaitAnswer =>
    match cls with
    | .ringback => s.ringingHeard l
    | .busy => s.endOnLine l .busy
    | .congestion => s.endOnLine l .congestion
    | .dial | .unknown => s
  | .idle | .clearing | .ringing | .connected | .answering | .connectedIn | .disabled | .fault => s

/-- The line controller takes the oldest report of its classifier (R90); a stale one is discarded. -/
def State.takeClassReport (s : State) (l : LineId) : State :=
  match (s.line l).reports with
  | [] => s
  | r :: rest =>
    let s1 := s.modLine l fun x => { x with reports := rest }
    if r.stale then s1 else s1.classTaken l r.cls

end Sys2Proof.Machine
end

