-- ==== Sys2Proof/Machine/Time.lean ====
section
/-! DEFINITION. The clocks that hand on work: the uptime counter with the retry schedule (R104, R109), the calendar's
advance (R123). -/

namespace Sys2Proof.Machine

/-- A due context made PENDING at the tail of its origin class; a pairing pass follows (R44, R48, R109). -/
def State.admitDue (s : State) (c : CtxId) : State :=
  ((s.modCtx c fun x => { x with state := .pending }).setWaiting (s.waiting.joinTail (s.ctx c).origin c)).pass

/-- A due context handed on (R109): it leaves the schedule and joins the waiting list, or ends with NO_LINE. -/
def State.handOn (s : State) (c : CtxId) : State :=
  let s1 := (s.unschedule c).modCtx c fun x => { x with due := none }
  if s1.maskUsable (s1.ctx c).mask then s1.admitDue c else s1.endContext c .noLine

/-- The head of the schedule, when its due uptime has come (R109). -/
def State.dueHead (s : State) : Option CtxId :=
  match s.schedule with
  | [] => none
  | c :: _ => if s.dueOf c ≤ s.uptime then some c else none

/-- The due contexts handed on one at a time, at most `fuel` of them (R109). -/
def State.dueLoop : Nat → State → State
  | 0, s => s
  | fuel + 1, s =>
    match s.dueHead with
    | none => s
    | some c => State.dueLoop fuel (s.handOn c)

/-- A rise of the uptime counter (R104, R109); at its greatest value it stops and nothing rises. -/
def State.uptimeRises (s : State) : State :=
  let s1 := { s with uptimeMs := 0 }
  if s.uptime < Config.max32 then
    let s2 := { s1 with uptime := s.uptime + 1 }
    if s.ctl.engine = .running then State.dueLoop s.schedule.length s2 else s2
  else s1

/-- The calendar has a supply: main power, or the battery that holds the retained domain (R123, R163). -/
def State.calendarPowered (s : State) : Bool := s.power.vddAbove || s.power.vbatPresent

/-- The calendar advances one second (R123), its check word with it. DESIGN CHOICE (log 27): with neither supply it stands
still; R123 has it advance on main power and, without that, while the battery holds the retained domain. -/
def State.calendarAdvances (s : State) : State :=
  if s.calendarPowered then s.modRetained fun t => t.moveCalendar t.calendar.advance else s

end Sys2Proof.Machine
end

