-- ==== Sys2Proof/Machine/ExecLines.lean ====
section
/-! DEFINITION. The meanings of what happens at the lines and by the clocks: line inputs, line timers, the classifier, the
meter's unit starts, the hold timer, uptime and calendar. -/

namespace Sys2Proof.Machine

/-- The loop sense inputs of a line change (R59). -/
def execLoopSenseChange (l : LineId) (a b : Bool) (s : State) : Host.Outcome State Fault Refusal :=
  .next (s.modLine l fun ln => ln.senseChange a b s.linesRun)

/-- A loop pattern has held for the qualify time (R59, R60). -/
def execLoopPatternQualified (l : LineId) (s : State) : Host.Outcome State Fault Refusal :=
  .next (s.atLine fun t => t.qualifyPattern l)

/-- The tone energy input of a line changes (R59). -/
def execToneEnergyChange (l : LineId) (present : Bool) (s : State) : Host.Outcome State Fault Refusal :=
  .next (s.modLine l fun ln => ln.toneChange present s.linesRun)

/-- A tone energy level has held for the qualify time (R59, R83). -/
def execToneEnergyQualified (l : LineId) (s : State) : Host.Outcome State Fault Refusal :=
  .next (s.atLine fun t => t.qualifyTone l)

/-- The ring detect input of a line changes (R92). -/
def execRingDetectChange (l : LineId) (active : Bool) (s : State) : Host.Outcome State Fault Refusal :=
  .next (s.modLine l fun ln => ln.ringChange active s.linesRun)

/-- The ring level changes from QUIET to RING (R92, R94). -/
def execQualifiedRing (l : LineId) (s : State) : Host.Outcome State Fault Refusal :=
  .next (s.atLine fun t => t.qualifyRing l)

/-- The ring level changes from RING to QUIET (R92, R95). -/
def execRingLevelQuiet (l : LineId) (s : State) : Host.Outcome State Fault Refusal :=
  .next (s.atLine fun t => t.qualifyQuiet l)

/-- The loop timer runs out (R61, R98). -/
def execLoopTimerExpiry (l : LineId) (s : State) : Host.Outcome State Fault Refusal :=
  .next (s.atLine fun t => t.loopTimerOut l)

/-- The dial-tone timer runs out (R62, R66). -/
def execDialToneTimerExpiry (l : LineId) (s : State) : Host.Outcome State Fault Refusal :=
  .next (s.atLine fun t => t.dialToneTimerOut l)

/-- The digit timer runs out (R64). -/
def execDigitTimerExpiry (l : LineId) (s : State) : Host.Outcome State Fault Refusal :=
  .next (s.atLine fun t => t.digitTimerRunsOut l)

/-- The pause timer runs out (R65). -/
def execPauseTimerExpiry (l : LineId) (s : State) : Host.Outcome State Fault Refusal :=
  .next (s.atLine fun t => t.pauseTimerOut l)

/-- The answer timer runs out (R68). -/
def execAnswerTimerExpiry (l : LineId) (s : State) : Host.Outcome State Fault Refusal :=
  .next (s.atLine fun t => t.answerTimerOut l)

/-- The max-duration timer runs out (R70). -/
def execMaxDurationTimerExpiry (l : LineId) (s : State) : Host.Outcome State Fault Refusal :=
  .next (s.atLine fun t => t.maxDurationOut l)

/-- The far-clear timer runs out (R72). -/
def execFarClearTimerExpiry (l : LineId) (s : State) : Host.Outcome State Fault Refusal :=
  .next (s.atLine fun t => t.farClearOut l)

/-- The clear guard runs out (R76). -/
def execClearGuardTimerExpiry (l : LineId) (s : State) : Host.Outcome State Fault Refusal :=
  .next (s.atLine fun t => t.clearGuardOut l)

/-- The ring gap timer runs out (R95). -/
def execRingGapTimerExpiry (l : LineId) (s : State) : Host.Outcome State Fault Refusal :=
  .next (s.atLine fun t => t.ringGapOut l)

/-- An ON period reaches 1000 ms (R85). -/
def execDialToneMark (l : LineId) (s : State) : Host.Outcome State Fault Refusal :=
  .next (s.atLine fun t => t.modLine l Line.dialMark)

/-- A WHOLE OFF period reaches 5001 ms (R89). -/
def execOffPeriodOverrun (l : LineId) (s : State) : Host.Outcome State Fault Refusal :=
  .next (s.atLine fun t => t.modLine l Line.offOverrun)

/-- The line controller takes a classifier report (R90). -/
def execClassReport (l : LineId) (s : State) : Host.Outcome State Fault Refusal :=
  .next (s.atLine fun t => t.takeClassReport l)

/-- The line's millisecond timer reaches the next unit start (R132). -/
def execUnitStart (l : LineId) (s : State) : Host.Outcome State Fault Refusal :=
  .next (s.atLine fun t => t.unitStarts l)

/-- The hold timer reaches the hold time (R153). -/
def execHoldTimerExpiry (s : State) : Host.Outcome State Fault Refusal := .next (s.modReport ReportWriter.holdOut)

/-- The uptime counter rises (R104, R109); no counting while a reset is in force. -/
def execUptimeTick (s : State) : Host.Outcome State Fault Refusal := .next (if s.inReset then s else s.uptimeRises)

/-- The calendar advances (R123), whatever the engine state and through a reset. -/
def execCalendarAdvance (s : State) : Host.Outcome State Fault Refusal := .next s.calendarAdvances

end Sys2Proof.Machine
end

