-- ==== Sys2Proof/Machine/Intake.lean ====
section
/-! DEFINITION. Request intake: which resource a record needs (R30), how a ring's head is considered (R28, R29), the
choice between the rings (R31), the take of a record (R32). -/

namespace Sys2Proof.Machine

/-- The resource a request needs, by the kind as read (R30). -/
def needOfKind (kind : Byte) : Need := if kind = 0x01 ∨ kind = 0x02 then .context else .doneSlot

/-- The resource is free (R30). -/
def State.hasFree (s : State) : Need → Bool
  | .context => s.freeCtx.isSome
  | .doneSlot => s.doneSlotFree

/-- The address of a ring's head record (R24). -/
def Ring.headAddr (x : Ring) : Word := slotAddr x.base x.size x.consumer

/-- The resource the head record of ring `r` needs, by its kind as it stands in memory. -/
def State.headNeed (s : State) (r : OrderRing) : Need := needOfKind (s.readAt (s.ring r).headAddr 0)

/-- A ring's head considered (R28, R29): an ACTIVE ring with no record becomes EMPTY, one whose head needs a resource
that is not free becomes HELD. -/
def Ring.considered (x : Ring) (need : Need) (isFree : Bool) : Ring :=
  if x.state = .active then
    if x.consumer = x.cachedProducer then { x with state := .empty }
    else if isFree then x
    else { x with state := .held need }
  else x

/-- The head of ring `r`, which needs `need`, considered. -/
def State.considerRing (s : State) (r : OrderRing) (need : Need) : State :=
  s.modRing r fun x => x.considered need (s.hasFree need)

/-- The ring is ACTIVE with a record at its head. -/
def Ring.hasRecord (x : Ring) : Bool := decide (x.state = .active) && decide (x.consumer ≠ x.cachedProducer)

/-- The table of R31: which ring is taken from, and the streak counter after the take. -/
def ringChoice (urgent routine : Bool) (streak : Nat) : Option (OrderRing × Nat) :=
  match urgent, routine with
  | true, true => if streak < 4 then some (.urgent, streak + 1) else some (.routine, 0)
  | true, false => some (.urgent, streak)
  | false, true => some (.routine, 0)
  | false, false => none

/-- The choice among rings whose heads have just been considered (R31): a ring that is still ACTIVE with a record is
takeable. -/
def State.choose (s : State) : Option (OrderRing × Nat) :=
  ringChoice (s.ring .urgent).hasRecord (s.ring .routine).hasRecord s.intake.streak

/-- Both heads considered (R31); the head of ring `r` needs `need`, the other's need is read from memory. -/
def State.considerHeads (s : State) (r : OrderRing) (need : Need) : State :=
  (s.considerRing r need).considerRing (otherRing r) (s.headNeed (otherRing r))

/-- Steps 3 and 4 of a take (R32): the consumer index raised and written into the header; an emptied ring becomes EMPTY
(R28). -/
def State.finishTake (s : State) (r : OrderRing) (bus : TakeBus) : State :=
  let s1 := s.modRing r fun x => { x with consumer := x.consumer + 1 }
  if bus = .writeError then s1.halt .memoryFault
  else
    let x := s1.ring r
    let s2 := s1.writeConsumer x.header x.consumer
    if x.consumer = x.cachedProducer then s2.modRing r fun y => { y with state := .empty } else s2

/-- The take of the record at the head of ring `r` (R31, R32), acted on by `act`. The record's bytes come with the command
and stand in the head's slot (log 11). A record that intake does not choose now is not taken (log 16). -/
def State.takeFrom (s : State) (r : OrderRing) (bus : TakeBus) (need : Need) (cells : List (Nat × Byte))
    (act : State → State) : State :=
  if s.ctl.engine = .running ∧ (s.ring r).hasRecord then
    let s1 := s.storeCells (s.ring r).headAddr cells
    if bus = .readError then s1.halt .memoryFault
    else
      let s2 := s1.considerHeads r need
      match s2.choose with
      | some (chosen, streak) => if chosen = r then (act (s2.setStreak streak)).finishTake r bus else s2
      | none => s2
  else if s.ctl.engine = .running then s.considerRing r need
  else s

end Sys2Proof.Machine
end

