-- ==== Sys2Proof/Machine/Requests.lean ====
section
/-! DEFINITION. What a taken record does: the intake checks of call requests (R14 to R16), CANCEL and RELEASE (R18, R19),
SET_LINE (R34, R35). -/

namespace Sys2Proof.Machine

/-! ## PLACE_CALL (R14) -/

/-- What the intake checks find: the snapshot taken, the class resolved, the outcome of the check that failed. -/
structure Verdict where
  snapshot : Policy
  tariff : Option ClassId
  failure : Option CallOutcome
deriving DecidableEq, Repr

/-- The policy a PLACE_CALL names: the NONE snapshot for NONE, a copy of the entry when it is present (R3, R103). -/
def State.namedPolicy (s : State) (rec : PlaceCallRec) : Option Policy :=
  if rec.namesNoPolicy then some Policy.single
  else
    match rec.policyIndex with
    | some i => s.retained.policies[i]
    | none => none

/-- Checks 5 and 6 of R14 for a resolved class. -/
def State.judgeClass (s : State) (rec : PlaceCallRec) (cls : ClassId) : Option CallOutcome :=
  if s.hasBand cls then if s.maskUsable (storedMask rec.mask) then none else some .noLine else some .noTariff

/-- Checks 4 to 6 of R14, for a snapshot already taken. -/
def State.judgeNumber (s : State) (rec : PlaceCallRec) (p : Policy) : Verdict :=
  match s.resolve (dialledNumber (rec.symbols.getD [])) with
  | .barred => { snapshot := p, tariff := none, failure := some .barred }
  | .noClass => { snapshot := p, tariff := none, failure := some .noTariff }
  | .tariff cls => { snapshot := p, tariff := some cls, failure := s.judgeClass rec cls }

/-- The six checks of R14, in order. -/
def State.judgePlaceCall (s : State) (rec : PlaceCallRec) : Verdict :=
  let bad : Verdict := { snapshot := Policy.single, tariff := none, failure := some .badRequest }
  if rec.inRanges then
    match s.namedPolicy rec with
    | none => bad
    | some p =>
      if (s.activeWithTag rec.tag).isSome then { snapshot := p, tariff := none, failure := some .duplicateTag }
      else s.judgeNumber rec p
  else bad

/-- The context of a PLACE_CALL as intake sets it (R2, R3, R7); it is decided in the same happening. -/
def placeCallContext (rec : PlaceCallRec) (r : OrderRing) (v : Verdict) : Context :=
  { Context.cleared with
    tag := rec.tag, direction := .outbound, origin := r, account := rec.accountId, tariff := v.tariff
    mask := storedMask rec.mask, signalNow := signalNowFlag rec.flags, progress := progressFlag rec.flags
    answerTimeout := rec.answerTimeout.toNat, maxDuration := rec.maxDuration.toNat, digits := rec.symbols
    snapshot := v.snapshot }

/-- A context made PENDING at the tail of its origin class, and the pairing pass (R14, R44, R48). -/
def State.joinWaiting (s : State) (c : CtxId) (origin : OrderRing) : State :=
  ((s.modCtx c fun x => { x with state := .pending }).setWaiting (s.waiting.joinTail origin c)).pass

/-- A PLACE_CALL acted on (R1, R7, R14). -/
def State.actPlaceCall (s : State) (r : OrderRing) (rec : PlaceCallRec) : State :=
  match s.freeCtx with
  | none => s
  | some c =>
    let v := s.judgePlaceCall rec
    let s1 := s.modCtx c fun _ => placeCallContext rec r v
    match v.failure with
    | some outcome => s1.endContext c outcome
    | none => s1.joinWaiting c r

/-! ## ACCEPT (R16) -/

/-- The context of an ACCEPT as intake sets it (R2, R3, R7). -/
def acceptContext (rec : AcceptRec) (r : OrderRing) : Context :=
  { Context.cleared with
    tag := rec.tag, direction := .inbound, origin := r, mask := maskOf rec.lineId
    signalNow := signalNowFlag rec.flags, progress := progressFlag rec.flags
    maxDuration := rec.maxDuration.toNat }

/-- The three checks of R16: the line to answer, or the outcome of the check that failed. -/
def State.judgeAccept (s : State) (rec : AcceptRec) : Except CallOutcome LineId :=
  match rec.lineId with
  | none => .error .badRequest
  | some l =>
    if (s.activeWithTag rec.tag).isSome then .error .duplicateTag
    else if (s.line l).state = .ringing then .ok l
    else .error .notRinging

/-- An ACCEPT acted on (R1, R7, R16, R97). -/
def State.actAccept (s : State) (r : OrderRing) (rec : AcceptRec) : State :=
  match s.freeCtx with
  | none => s
  | some c =>
    let s1 := s.modCtx c fun _ => acceptContext rec r
    match s.judgeAccept rec with
    | .error outcome => s1.endContext c outcome
    | .ok l =>
      (s1.modCtx c fun x => { x with state := .onLine, currentLine := some l, lastLine := some l }).answerLine l c

/-! ## CANCEL and RELEASE (R18, R19) -/

/-- The status for a target tag that no active context carries (R18, R19). -/
def State.missStatus (s : State) (target : Half) : DoneStatus :=
  if s.endedWithTag target then .tooLate else .noSuchTag

/-- A CANCEL acted on (R18). The leave of a waiting context is followed by a pairing pass (R45). -/
def State.actCancel (s : State) (rec : TargetRec) : State :=
  let urgent := signalNowFlag rec.flags
  match s.activeWithTag rec.target with
  | some c =>
    let s1 := (s.queueDone rec.tag 0x03 .done none urgent).endContext c .cancelled
    if (s.ctx c).state = .pending then s1.pass else s1
  | none => s.queueDone rec.tag 0x03 (s.missStatus rec.target) none urgent

/-- The context is connected: ON_LINE on a line in CONNECTED or CONNECTED_IN (R19). -/
def State.isConnected (s : State) (c : CtxId) : Bool :=
  match (s.ctx c).state, (s.ctx c).currentLine with
  | .onLine, some l => decide ((s.line l).state = .connected) || decide ((s.line l).state = .connectedIn)
  | _, _ => false

/-- A RELEASE acted on (R19). -/
def State.actRelease (s : State) (rec : TargetRec) : State :=
  let urgent := signalNowFlag rec.flags
  match s.activeWithTag rec.target with
  | some c =>
    if s.isConnected c then (s.queueDone rec.tag 0x04 .done none urgent).endContext c .completedNear
    else s.queueDone rec.tag 0x04 .notConnected none urgent
  | none => s.queueDone rec.tag 0x04 (s.missStatus rec.target) none urgent

/-! ## SET_LINE (R34, R35) -/

/-- What SET_LINE's enable field does to a line state (R35). -/
inductive EnableEffect where
  | none
  | disable
  | enable
  | pending (set : Bool)
deriving DecidableEq, Repr

/-- The table of R35. -/
def enableEffect (state : LineState) (enable : Bool) : EnableEffect :=
  match state with
  | .idle => if enable then .none else .disable
  | .disabled | .fault => if enable then .enable else .none
  | .seize | .dialing | .awaitAnswer | .connected | .answering | .connectedIn | .clearing | .ringing =>
    .pending (!enable)

/-- A SET_LINE acted on (R34, R35): the reply stands ahead of all that the sweep and the pass queue. -/
def State.actSetLine (s : State) (rec : SetLineRec) : State :=
  match rec.settings with
  | none => s.queueDone rec.tag 0x10 .badRequest none false
  | some (l, enable, params) =>
    let s1 := s.modLine l fun ln => { ln with stored := params }
    match enableEffect (s.line l).state enable with
    | .none => s1.queueDone rec.tag 0x10 .done none false
    | .disable =>
      let s2 := (s1.modLine l fun ln => { ln with state := .disabled }).leaveFree l
      (s2.queueDone rec.tag 0x10 .done none false).sweep.pass
    | .enable =>
      let s2 := (s1.modLine l fun ln => { ln with state := .idle }).joinFree l
      (s2.queueDone rec.tag 0x10 .done none false).pass
    | .pending set =>
      (s1.modLine l fun ln => { ln with disablePending := set }).queueDone rec.tag 0x10 .done none false

/-! ## Tables and calendar (R36 to R41) -/

/-- A configuration request answered: its reply, and the retained domain changed when its fields were in range. -/
def State.answerConfig (s : State) (tag : Half) (kind : Byte) (change : Option (Retained → Retained)) : State :=
  match change with
  | none => s.queueDone tag kind .badRequest none false
  | some f => (s.modRetained f).queueDone tag kind .done none false

/-- The change a LOAD_PREFIX makes (R36). -/
def loadPrefixChange (rec : LoadPrefixRec) : Option (Retained → Retained) :=
  rec.entry.map fun (i, e) => fun t => t.setPrefixes (t.prefixes.set i e)

/-- The change a LOAD_BAND makes (R37). -/
def loadBandChange (rec : LoadBandRec) : Option (Retained → Retained) :=
  rec.entry.map fun (c, i, e) => fun t => t.setBands (t.bands.set c (t.bands[c].set i e))

/-- The change a SET_POLICY makes (R38). -/
def setPolicyChange (rec : SetPolicyRec) : Option (Retained → Retained) :=
  rec.entry.map fun (i, e) => fun t => t.setPolicies (t.policies.set i e)

/-- The change a SET_CLOCK makes (R40): the part of a second already counted is discarded. -/
def setClockChange (rec : SetClockRec) : Option (Retained → Retained) :=
  if rec.valid then
    some fun t => t.setCalendar { day := rec.day, second := rec.second.toNat, ms := 0, valid := true }
  else none

/-- An ACCOUNT operation acted on (R39): the account changed, the reply DONE. -/
def State.actAccount (s : State) (tag : Half) (a : AccountId) (f : Account → Account) : State :=
  (s.modAccount a f).queueDone tag 0x14 .done none false

end Sys2Proof.Machine
end

