-- ==== Sys2Proof/Machine/ExecRequests.lean ====
section
/-! DEFINITION. The meanings of the takes of request records (R32), one for each kind and each ACCOUNT operation. -/

namespace Sys2Proof.Machine

/-- A PLACE_CALL record is taken (R14). -/
def execPlaceCall (r : OrderRing) (bus : TakeBus) (rec : PlaceCallRec) (s : State) :
    Host.Outcome State Fault Refusal :=
  .next (s.takeFrom r bus .context rec.cells fun t => t.actPlaceCall r rec)

/-- An ACCEPT record is taken (R16). -/
def execAccept (r : OrderRing) (bus : TakeBus) (rec : AcceptRec) (s : State) : Host.Outcome State Fault Refusal :=
  .next (s.takeFrom r bus .context rec.cells fun t => t.actAccept r rec)

/-- A CANCEL record is taken (R18). -/
def execCancel (r : OrderRing) (bus : TakeBus) (rec : TargetRec) (s : State) : Host.Outcome State Fault Refusal :=
  .next (s.takeFrom r bus .doneSlot (rec.cells 0x03) fun t => t.actCancel rec)

/-- A RELEASE record is taken (R19). -/
def execRelease (r : OrderRing) (bus : TakeBus) (rec : TargetRec) (s : State) : Host.Outcome State Fault Refusal :=
  .next (s.takeFrom r bus .doneSlot (rec.cells 0x04) fun t => t.actRelease rec)

/-- A SET_LINE record is taken (R34, R35). -/
def execSetLine (r : OrderRing) (bus : TakeBus) (rec : SetLineRec) (s : State) : Host.Outcome State Fault Refusal :=
  .next (s.takeFrom r bus .doneSlot rec.cells fun t => t.actSetLine rec)

/-- A LOAD_PREFIX record is taken (R36, R41). -/
def execLoadPrefix (r : OrderRing) (bus : TakeBus) (rec : LoadPrefixRec) (s : State) :
    Host.Outcome State Fault Refusal :=
  .next (s.takeFrom r bus .doneSlot rec.cells fun t => t.answerConfig rec.tag 0x11 (loadPrefixChange rec))

/-- A LOAD_BAND record is taken (R37, R41). -/
def execLoadBand (r : OrderRing) (bus : TakeBus) (rec : LoadBandRec) (s : State) :
    Host.Outcome State Fault Refusal :=
  .next (s.takeFrom r bus .doneSlot rec.cells fun t => t.answerConfig rec.tag 0x12 (loadBandChange rec))

/-- A SET_POLICY record is taken (R38, R41). -/
def execSetPolicy (r : OrderRing) (bus : TakeBus) (rec : SetPolicyRec) (s : State) :
    Host.Outcome State Fault Refusal :=
  .next (s.takeFrom r bus .doneSlot rec.cells fun t => t.answerConfig rec.tag 0x13 (setPolicyChange rec))

/-- An ACCOUNT record with SET_LIMIT is taken (R39, R138). -/
def execAccountSetLimit (r : OrderRing) (bus : TakeBus) (tag : Half) (account : AccountId) (limited : Bool)
    (limit : Word) (s : State) : Host.Outcome State Fault Refusal :=
  .next (s.takeFrom r bus .doneSlot (setLimitCells tag account limited limit) fun t =>
    t.actAccount tag account fun x => { x with limited := limited, limit := limit.toNat })

/-- An ACCOUNT record with CLEAR_TOTAL is taken (R39, R139). -/
def execAccountClearTotal (r : OrderRing) (bus : TakeBus) (tag : Half) (account : AccountId) (s : State) :
    Host.Outcome State Fault Refusal :=
  .next (s.takeFrom r bus .doneSlot (accountCells 2 tag account) fun t =>
    t.actAccount tag account fun x => { x with total := 0 })

/-- An ACCOUNT record with SUSPEND is taken (R39, R140). -/
def execAccountSuspend (r : OrderRing) (bus : TakeBus) (tag : Half) (account : AccountId) (s : State) :
    Host.Outcome State Fault Refusal :=
  .next (s.takeFrom r bus .doneSlot (accountCells 3 tag account) fun t =>
    t.actAccount tag account fun x => { x with suspended := true })

/-- An ACCOUNT record with RESUME is taken (R39, R140). -/
def execAccountResume (r : OrderRing) (bus : TakeBus) (tag : Half) (account : AccountId) (s : State) :
    Host.Outcome State Fault Refusal :=
  .next (s.takeFrom r bus .doneSlot (accountCells 4 tag account) fun t =>
    t.actAccount tag account fun x => { x with suspended := false })

/-- An ACCOUNT record with READ is taken (R39, R141); the check word is not rewritten (R41). -/
def execAccountRead (r : OrderRing) (bus : TakeBus) (tag : Half) (account : AccountId) (s : State) :
    Host.Outcome State Fault Refusal :=
  .next (s.takeFrom r bus .doneSlot (accountCells 5 tag account) fun t =>
    t.queueDone tag 0x14 .done (some (account, t.account account)) false)

/-- An ACCOUNT record that R39 answers BAD_REQUEST is taken. -/
def execAccountInvalidOperation (r : OrderRing) (bus : TakeBus) (rec : AccountRec) (s : State) :
    Host.Outcome State Fault Refusal :=
  .next (s.takeFrom r bus .doneSlot rec.cells fun t => t.queueDone rec.tag 0x14 .badRequest none false)

/-- A SET_CLOCK record is taken (R40, R41). -/
def execSetClock (r : OrderRing) (bus : TakeBus) (rec : SetClockRec) (s : State) :
    Host.Outcome State Fault Refusal :=
  .next (s.takeFrom r bus .doneSlot rec.cells fun t => t.answerConfig rec.tag 0x15 (setClockChange rec))

/-- A record of unknown kind is taken (R30, R32, R33). -/
def execUnknownRequestKind (r : OrderRing) (bus : TakeBus) (kind : Byte) (tag : Half) (s : State) :
    Host.Outcome State Fault Refusal :=
  .next (s.takeFrom r bus .doneSlot (headCells kind tag) fun t => t.queueDone tag kind .badRequest none false)

end Sys2Proof.Machine
end

