-- ==== Sys2Proof/Machine/Dispatch.lean ====
section
/-! DEFINITION. The dispatch: one arm for each command, each a direct call of that command's meaning. -/

namespace Sys2Proof.Machine

def exec (i : Instr) (s : State) : Host.Outcome State Fault Refusal :=
  match i with
  -- writes to CONTROL (R157)
  | .start stores first bus => Sys2Proof.Machine.execStart stores first bus s
  | .quiesce => Sys2Proof.Machine.execQuiesce s
  | .abort => Sys2Proof.Machine.execAbort s
  | .reset => Sys2Proof.Machine.execReset s
  | .badCommand value => Sys2Proof.Machine.execBadCommand value s
  -- writes to the other registers (R156)
  | .orderRingPost stores r busError => Sys2Proof.Machine.execOrderRingPost stores r busError s
  | .reportPostBit stores busError => Sys2Proof.Machine.execReportPostBit stores busError s
  | .signalAcknowledge => Sys2Proof.Machine.execSignalAcknowledge s
  | .setupAddrWrite value => Sys2Proof.Machine.execSetupAddrWrite value s
  | .readOnlyRegisterWrite value => Sys2Proof.Machine.execReadOnlyRegisterWrite value s
  -- resets and supplies (R163), the check of the retained tables (R164)
  | .powerOnReset vdd => Sys2Proof.Machine.execPowerOnReset vdd s
  | .powerOnResetEnd => Sys2Proof.Machine.execPowerOnResetEnd s
  | .resetnAssert => Sys2Proof.Machine.execResetnAssert s
  | .resetnRelease => Sys2Proof.Machine.execResetnRelease s
  | .retainedCheckDone => Sys2Proof.Machine.execRetainedCheckDone s
  -- takes of a request record (R32)
  | .placeCall r bus rec => Sys2Proof.Machine.execPlaceCall r bus rec s
  | .accept r bus rec => Sys2Proof.Machine.execAccept r bus rec s
  | .cancel r bus rec => Sys2Proof.Machine.execCancel r bus rec s
  | .release r bus rec => Sys2Proof.Machine.execRelease r bus rec s
  | .setLine r bus rec => Sys2Proof.Machine.execSetLine r bus rec s
  | .loadPrefix r bus rec => Sys2Proof.Machine.execLoadPrefix r bus rec s
  | .loadBand r bus rec => Sys2Proof.Machine.execLoadBand r bus rec s
  | .setPolicy r bus rec => Sys2Proof.Machine.execSetPolicy r bus rec s
  | .accountSetLimit r bus tag account limited limit => Sys2Proof.Machine.execAccountSetLimit r bus tag account limited limit s
  | .accountClearTotal r bus tag account => Sys2Proof.Machine.execAccountClearTotal r bus tag account s
  | .accountSuspend r bus tag account => Sys2Proof.Machine.execAccountSuspend r bus tag account s
  | .accountResume r bus tag account => Sys2Proof.Machine.execAccountResume r bus tag account s
  | .accountRead r bus tag account => Sys2Proof.Machine.execAccountRead r bus tag account s
  | .accountInvalidOperation r bus rec => Sys2Proof.Machine.execAccountInvalidOperation r bus rec s
  | .setClock r bus rec => Sys2Proof.Machine.execSetClock r bus rec s
  | .unknownRequestKind r bus kind tag => Sys2Proof.Machine.execUnknownRequestKind r bus kind tag s
  -- line inputs (R59, R60, R83, R92)
  | .loopSenseChange l a b => Sys2Proof.Machine.execLoopSenseChange l a b s
  | .loopPatternQualified l => Sys2Proof.Machine.execLoopPatternQualified l s
  | .toneEnergyChange l present => Sys2Proof.Machine.execToneEnergyChange l present s
  | .toneEnergyQualified l => Sys2Proof.Machine.execToneEnergyQualified l s
  | .ringDetectChange l active => Sys2Proof.Machine.execRingDetectChange l active s
  | .qualifiedRing l => Sys2Proof.Machine.execQualifiedRing l s
  | .ringLevelQuiet l => Sys2Proof.Machine.execRingLevelQuiet l s
  -- line timers (R61 to R76, R95)
  | .loopTimerExpiry l => Sys2Proof.Machine.execLoopTimerExpiry l s
  | .dialToneTimerExpiry l => Sys2Proof.Machine.execDialToneTimerExpiry l s
  | .digitTimerExpiry l => Sys2Proof.Machine.execDigitTimerExpiry l s
  | .pauseTimerExpiry l => Sys2Proof.Machine.execPauseTimerExpiry l s
  | .answerTimerExpiry l => Sys2Proof.Machine.execAnswerTimerExpiry l s
  | .maxDurationTimerExpiry l => Sys2Proof.Machine.execMaxDurationTimerExpiry l s
  | .farClearTimerExpiry l => Sys2Proof.Machine.execFarClearTimerExpiry l s
  | .clearGuardTimerExpiry l => Sys2Proof.Machine.execClearGuardTimerExpiry l s
  | .ringGapTimerExpiry l => Sys2Proof.Machine.execRingGapTimerExpiry l s
  -- the classifier (R85, R89, R90)
  | .dialToneMark l => Sys2Proof.Machine.execDialToneMark l s
  | .offPeriodOverrun l => Sys2Proof.Machine.execOffPeriodOverrun l s
  | .classReport l => Sys2Proof.Machine.execClassReport l s
  -- the meter, the signal line, the clocks, the report writer
  | .unitStart l => Sys2Proof.Machine.execUnitStart l s
  | .holdTimerExpiry => Sys2Proof.Machine.execHoldTimerExpiry s
  | .uptimeTick => Sys2Proof.Machine.execUptimeTick s
  | .calendarAdvance => Sys2Proof.Machine.execCalendarAdvance s
  | .reportPost bus => Sys2Proof.Machine.execReportPost bus s
  | .vbatLoss => Sys2Proof.Machine.execVbatLoss s

end Sys2Proof.Machine
end

