-- ==== Sys2Proof/Machine/Clock.lean ====
section
/-! DEFINITION. What the part does by itself while no command waits (log 1): the heads of the order rings are considered
(R31); of the happenings that are due one is taken (log 9); when none is due, one millisecond passes. -/

namespace Sys2Proof.Machine

/-- A command, when its time has come. -/
def dueIf (due : Bool) (i : Instr) : List Instr := if due then [i] else []

/-- A timer has run out. -/
def ranOut (timer : Option Nat) : Bool := decide (timer = some 0)

/-- The happenings due at line `l`, its meter entry as given. -/
def Line.due (ln : Line) (l : LineId) (entry : Option MeterEntry) : List Instr :=
  dueIf (ranOut ln.loopQual) (.loopPatternQualified l)
    ++ dueIf (ranOut ln.toneQual) (.toneEnergyQualified l)
    ++ dueIf (ranOut ln.ringQual && ln.ringRaw) (.qualifiedRing l)
    ++ dueIf (ranOut ln.ringQual && !ln.ringRaw) (.ringLevelQuiet l)
    ++ dueIf (ranOut ln.loopTimer) (.loopTimerExpiry l)
    ++ dueIf (ranOut ln.dialToneTimer) (.dialToneTimerExpiry l)
    ++ dueIf (ranOut ln.digitTimer) (.digitTimerExpiry l)
    ++ dueIf (ranOut ln.pauseTimer) (.pauseTimerExpiry l)
    ++ dueIf (ranOut ln.answerTimer) (.answerTimerExpiry l)
    ++ dueIf (ranOut ln.maxDurationTimer) (.maxDurationTimerExpiry l)
    ++ dueIf (ranOut ln.farClearTimer) (.farClearTimerExpiry l)
    ++ dueIf (ranOut ln.clearGuard) (.clearGuardTimerExpiry l)
    ++ dueIf (ranOut ln.ringGap) (.ringGapTimerExpiry l)
    ++ dueIf (ln.classifier.enabled && ln.classifier.periodOn && decide (Config.dialToneMs ≤ ln.classifier.elapsed)
        && decide (ln.classifier.cls ≠ .dial)) (.dialToneMark l)
    ++ dueIf (ln.classifier.enabled && !ln.classifier.periodOn && ln.classifier.whole && ln.classifier.cycleOn.isSome
        && decide (Config.offOverrunMs ≤ ln.classifier.elapsed)) (.offPeriodOverrun l)
    ++ dueIf (!ln.reports.isEmpty) (.classReport l)
    ++ dueIf (match entry with | some e => decide (e.nextStart ≤ ln.msTimer) | none => false) (.unitStart l)

/-- The take intake would make now (R31), the record read from its slot; none outside RUNNING. -/
def State.dueTake (s : State) : List Instr :=
  if s.ctl.engine = .running then
    match s.choose with
    | some (r, _) => [decodeRequest r .ok (s.readAt (s.ring r).headAddr)]
    | none => []
  else []

/-- The happenings due, none of them sent by the host. -/
def State.dueNow (s : State) : List Instr :=
  dueIf (s.calendarPowered && decide (1000 ≤ s.retained.calendar.ms)) .calendarAdvance
    ++ dueIf (s.power.powerReset && decide (s.power.stableLeft = some 0)) .powerOnResetEnd
    ++ (if s.inReset then []
        else
          dueIf (decide (s.ctl.engine = .checking)) .retainedCheckDone
            ++ dueIf (decide (1000 ≤ s.uptimeMs)) .uptimeTick
            ++ dueIf (decide (s.report.holdTimer = .running 0)) .holdTimerExpiry
            ++ dueIf (s.mayPost && !s.report.outbox.isEmpty) (.reportPost .ok)
            ++ s.dueTake
            ++ (if s.linesRun then allLines.flatMap fun l => (s.line l).due l (s.meter l) else []))

/-- A timer one millisecond on. -/
def tickTimer (timer : Option Nat) : Option Nat := timer.map fun n => n - 1

/-- The classifier one millisecond on (R81). -/
def Classifier.tick (k : Classifier) : Classifier :=
  if k.enabled then { k with elapsed := satAdd Config.maxPeriodMs k.elapsed 1 } else k

/-- A line one millisecond on. -/
def Line.tick (ln : Line) : Line :=
  { ln with
    loopQual := tickTimer ln.loopQual, toneQual := tickTimer ln.toneQual, ringQual := tickTimer ln.ringQual
    loopTimer := tickTimer ln.loopTimer, dialToneTimer := tickTimer ln.dialToneTimer
    digitTimer := tickTimer ln.digitTimer, pauseTimer := tickTimer ln.pauseTimer
    answerTimer := tickTimer ln.answerTimer, maxDurationTimer := tickTimer ln.maxDurationTimer
    farClearTimer := tickTimer ln.farClearTimer, clearGuard := tickTimer ln.clearGuard
    ringGap := tickTimer ln.ringGap, classifier := ln.classifier.tick, msTimer := ln.msTimer + 1 }

/-- A connected line counts its context's connected milliseconds (R70). -/
def State.countConnected (s : State) (l : LineId) : State :=
  if (s.line l).state = .connected ∨ (s.line l).state = .connectedIn then
    match (s.line l).held with
    | some c => s.modCtx c fun x => { x with connectedMs := satAdd Config.max32 x.connectedMs 1 }
    | none => s
  else s

/-- The hold timer one millisecond on (R153). -/
def HoldTimer.tick : HoldTimer → HoldTimer
  | .running left => .running (left - 1)
  | .stopped => .stopped
  | .expired => .expired

/-- The lines one millisecond on, with the connected milliseconds (R70); none in a reset or in HALTED (R79). -/
def State.tickLines (s : State) : State :=
  if s.linesRun then allLines.foldl State.countConnected { s with lines := s.lines.map Line.tick } else s

/-- Uptime's and the report writer's milliseconds, and the 20 ms of a power-on reset (R104, R153, R163). -/
def State.tickClocks (s : State) : State :=
  { s with
    uptimeMs := if s.inReset then 0 else s.uptimeMs + 1
    report := { s.report with holdTimer := s.report.holdTimer.tick }
    power := { s.power with stableLeft := tickTimer s.power.stableLeft }
    retained :=
      if s.calendarPowered then
        { s.retained with calendar := { s.retained.calendar with ms := s.retained.calendar.ms + 1 } }
      else s.retained }

/-- One millisecond passes. -/
def State.passMs (s : State) : State := s.tickLines.tickClocks

/-- The heads of both order rings considered while no command waits (R31). -/
def State.intakeLooks (s : State) : State :=
  if s.ctl.engine = .running then s.considerHeads .urgent (s.headNeed .urgent) else s

/-- An empty queue: the part goes on by itself (log 1). -/
def State.idle (s : State) : Host.Outcome State Fault Refusal :=
  let s1 := s.intakeLooks
  match s1.dueNow with
  | [] => .next s1.passMs
  | [i] => exec i s1
  | i :: j :: rest =>
    let all := i :: j :: rest
    exec (all.getD (Config.orderChoice s1.seed % all.length) i) { s1 with seed := s1.seed + 1 }

end Sys2Proof.Machine
end

