-- ==== Sys2Proof/Safety.lean ====
section
/-! DEFINITION. What a safe run keeps: the invariants of the lists, the lines, the outbox, the rings, the retained tables
and the signal line, in the terms of the rules that state them. -/

namespace Sys2Proof.Machine

/-! ## Invariants -/

/-- Shared memory is in its canonical form. -/
def State.MemoryCanonical (s : State) : Prop := Memory.wf s.mem = true

/-- The free line list holds exactly the IDLE lines, each once (R46). -/
def State.FreeListExact (s : State) : Prop :=
  s.freeLines.Nodup ∧ ∀ l : LineId, l ∈ s.freeLines ↔ (s.line l).state = .idle

/-- The waiting list holds exactly the PENDING contexts, each once, in the part of its origin class (R8, R43). -/
def State.WaitingExact (s : State) : Prop :=
  s.waiting.urgent.Nodup ∧ s.waiting.routine.Nodup
    ∧ (∀ c : CtxId, c ∈ s.waiting.urgent ↔ (s.ctx c).state = .pending ∧ (s.ctx c).origin = .urgent)
    ∧ ∀ c : CtxId, c ∈ s.waiting.routine ↔ (s.ctx c).state = .pending ∧ (s.ctx c).origin = .routine

/-- The retry schedule holds exactly the RETRY_WAIT contexts, each once, in due order, and exactly they have a retry due
uptime (R5, R10, R108). -/
def State.ScheduleExact (s : State) : Prop :=
  s.schedule.Nodup
    ∧ (∀ c : CtxId, c ∈ s.schedule ↔ (s.ctx c).state = .retryWait)
    ∧ (∀ c : CtxId, (s.ctx c).due.isSome = true ↔ (s.ctx c).state = .retryWait)
    ∧ s.schedule.Pairwise fun c d => s.dueOf c ≤ s.dueOf d

/-- Every waiting context stands once on its list. -/
def State.ListsExact (s : State) : Prop := s.WaitingExact ∧ s.ScheduleExact

/-- The references to context `c` in the outbox. -/
def State.refsTo (s : State) (c : CtxId) : Nat := s.report.outbox.countP fun e => decide (e.body = .callEnd c)

/-- The outbox keeps its quotas, and references each ENDED context exactly once and no other (R12, R146). -/
def State.OutboxExact (s : State) : Prop :=
  s.report.outbox.countP OutboxEntry.isDone ≤ Config.quota
    ∧ s.report.outbox.countP OutboxEntry.isProgress ≤ Config.quota
    ∧ s.report.outbox.countP OutboxEntry.isUnsolicited ≤ Config.quota
    ∧ ∀ c : CtxId, s.refsTo c = if (s.ctx c).state = .ended then 1 else 0

/-- While the engine is not HALTED, a line is held exactly in its off-hook states, by an ON_LINE context that names it, and
every ON_LINE context is so held (R9, R56); an open metering entry belongs to a CONNECTED line and its held context
(R129). -/
def State.LinesExact (s : State) : Prop :=
  s.ctl.engine ≠ .halted →
    (∀ l : LineId, (s.line l).held.isSome = (s.line l).state.offHook)
      ∧ (∀ l : LineId, ∀ c ∈ (s.line l).held, (s.ctx c).state = .onLine ∧ (s.ctx c).currentLine = some l)
      ∧ (∀ c : CtxId, (s.ctx c).state = .onLine → ∃ l : LineId, (s.line l).held = some c)
      ∧ ∀ l : LineId, ∀ e ∈ s.meter l, (s.line l).state = .connected ∧ (s.line l).held = some e.ctx

/-- No attempt count passes the attempt limit of its snapshot, and a waiting context has an attempt left (R4, R50, R103). -/
def State.AttemptsInLimit (s : State) : Prop :=
  ∀ c : CtxId, 1 ≤ (s.ctx c).snapshot.limit ∧ (s.ctx c).attempts ≤ (s.ctx c).snapshot.limit
    ∧ ((s.ctx c).state.isActive = true → (s.ctx c).state ≠ .onLine → (s.ctx c).attempts < (s.ctx c).snapshot.limit)

/-- A policy in its range (R102): attempt limit 1 to 8, one to six intervals of 5 to 3600 s. -/
def Policy.InRange (p : Policy) : Prop :=
  (1 ≤ p.limit ∧ p.limit ≤ 8) ∧ (1 ≤ p.intervals.length ∧ p.intervals.length ≤ 6)
    ∧ ∀ k ∈ p.intervals, 5 ≤ k ∧ k ≤ 3600

/-- Every present entry of the policy table is in its range (R102). -/
def State.PoliciesInRange (s : State) : Prop := ∀ i : Fin 8, ∀ p ∈ s.retained.policies[i], p.InRange

/-- Every snapshot is that of NONE or a policy in its range (R3, R103). -/
def State.SnapshotsInRange (s : State) : Prop :=
  ∀ c : CtxId, (s.ctx c).snapshot = { limit := 1, intervals := [], outcomes := 0 } ∨ (s.ctx c).snapshot.InRange

/-- No two active contexts carry one tag (R15). -/
def State.TagsUnique (s : State) : Prop :=
  ∀ c d : CtxId, (s.ctx c).state.isActive = true → (s.ctx d).state.isActive = true → (s.ctx c).tag = (s.ctx d).tag →
    c = d

/-- The digit-tone drive and the classifier follow the line state (R57, R62 to R66): the drive is on only while the tone of a
digit is timed in DIALING, one symbol at a time is in hand, and the classifier is enabled in the dial-tone wait of SEIZE, in
a W wait and in AWAIT_ANSWER alone. -/
def Line.SignallingExact (ln : Line) : Prop :=
  (ln.drive.isSome = true → ln.digitTimer.isSome = true)
    ∧ (ln.digitTimer.isSome = true → ln.state = .dialing ∧ ln.pauseTimer = none ∧ ln.dialToneTimer = none)
    ∧ (ln.pauseTimer.isSome = true → ln.state = .dialing ∧ ln.dialToneTimer = none)
    ∧ (ln.dialToneTimer.isSome = true → ln.state = .dialing ∨ (ln.state = .seize ∧ ln.dialToneWait = true))
    ∧ (ln.dialToneWait = true → ln.state = .seize ∧ ln.dialToneTimer.isSome = true)
    ∧ (ln.classifier.enabled = true ↔ ln.state = .awaitAnswer ∨ ln.dialToneTimer.isSome = true)

/-- The front command does not take the retained content away (R41, R163): VBAT is not lost without main power, main power
does not fall without a battery, and no write into a retained table is cut. -/
def State.RetainedHolds (s : State) : Prop :=
  (s.pending.head? = some .vbatLoss → s.power.vddAbove = true)
    ∧ ∀ vdd : VddCrossing, s.pending.head? = some (.powerOnReset vdd) →
      (vdd.above = true ∨ s.power.vbatPresent = true) ∧ ∀ which : RetainedTable, vdd.cut ≠ .table which

/-- A ring that is not FAULTED has a cached producer index at most its size ahead of its consumer index (R24, R27). -/
def Ring.Bounded (x : Ring) : Prop := x.state ≠ .faulted → (x.cachedProducer - x.consumer).toNat ≤ x.size

/-- Outside HALTED both order rings, and the report ring once adopted, stay within their sizes (R24, R148). -/
def State.RingsBounded (s : State) : Prop :=
  s.ctl.engine ≠ .halted →
    (s.ring .urgent).Bounded ∧ (s.ring .routine).Bounded
      ∧ (s.report.adopted = true → (s.report.producer - s.report.cachedConsumer).toNat ≤ s.report.size)

/-- Outside HALTED, with the pending flag clear the unsignalled count stands below the batch count and the hold timer is not
EXPIRED (R153); a hold timer that is not STOPPED was started by a post that is still counted. -/
def State.SignalKept (s : State) : Prop :=
  1 ≤ s.report.batch
    ∧ (s.report.holdTimer ≠ .stopped → 0 < s.report.unsignalled)
    ∧ (s.ctl.engine ≠ .halted → s.report.sigPending = false →
        s.report.unsignalled < s.report.batch ∧ s.report.holdTimer ≠ .expired)

/-- Every retained table agrees with its check word (R165). -/
def Retained.Sound (t : Retained) : Prop :=
  isSound (prefixTableWords t.prefixes) t.prefixCheck = true
    ∧ isSound (bandTableWords t.bands) t.bandCheck = true
    ∧ isSound (accountTableWords t.accounts) t.accountCheck = true
    ∧ isSound (policyTableWords t.policies) t.policyCheck = true
    ∧ isSound (calendarWords t.calendar) t.calendarCheck = true

/-! ## What is left alone -/

/-- `t` has the control block, supplies, intake, uptime, shared memory and model fields of `s`. -/
structure State.Keeps (s t : State) : Prop where
  ctl : t.ctl = s.ctl
  power : t.power = s.power
  intake : t.intake = s.intake
  uptime : t.uptime = s.uptime
  uptimeMs : t.uptimeMs = s.uptimeMs
  mem : t.mem = s.mem
  seed : t.seed = s.seed
  pending : t.pending = s.pending

/-! ## The words of the statements -/

/-- Every other context is as it was. -/
def State.OtherCtxs (s t : State) (c : CtxId) : Prop := ∀ d : CtxId, d ≠ c → t.ctx d = s.ctx d

/-- Every line and every metering entry is as it was. -/
def State.SameLines (s t : State) : Prop := ∀ l : LineId, t.line l = s.line l ∧ t.meter l = s.meter l

/-- Every line and metering entry but those of line `l` is as it was. -/
def State.OtherLines (s t : State) (l : LineId) : Prop :=
  ∀ k : LineId, k ≠ l → t.line k = s.line k ∧ t.meter k = s.meter k

/-- The lists of the allocator and the retry schedule are as they were. -/
def State.SameLists (s t : State) : Prop :=
  t.waiting = s.waiting ∧ t.freeLines = s.freeLines ∧ t.schedule = s.schedule

/-- The report writer with entries appended at the tail of its outbox, else as it was (R146). -/
def ReportWriter.append (r : ReportWriter) (es : List OutboxEntry) : ReportWriter :=
  { r with outbox := r.outbox ++ es }

/-- A PROGRESS report that the state has room for, with the urgent mark R152 gives it. -/
def State.progressEntry (s : State) (c : CtxId) (l : LineId) (kind : ProgressKind) (attempts : Nat) : OutboxEntry :=
  { body := .progress { tag := (s.ctx c).tag, kind := kind, line := l, attempts := attempts }
    urgent := (s.ctx c).signalNow || kind.isWarning }

/-- The outbox has a place free for a PROGRESS report (R146). -/
def State.progressRoom (s : State) : Bool := decide (s.report.outbox.countP OutboxEntry.isProgress < 8)

/-- The outbox has a place free for an UNSOLICITED report (R146). -/
def State.unsolicitedRoom (s : State) : Bool :=
  decide (s.report.outbox.countP OutboxEntry.isUnsolicited < 8)

/-- The report writer after a block has handed it an UNSOLICITED report (R147): queued urgent with the calendar stamp, or
dropped and counted as missed. -/
def State.afterUnsolicited (s : State) (kind : UnsolicitedKind) : ReportWriter :=
  if s.unsolicitedRoom then
    s.report.append
      [{ body := .unsolicited
          { kind := kind, stamp := { day := s.retained.calendar.day, second := s.retained.calendar.second } }
         urgent := true }]
  else { s.report with missed := min (s.report.missed + 1) 255 }

/-- A line whose attempt or call has ended (R73 steps 1 and 2, R74): CLEARING, relay open, every timer of the attempt
stopped, the guard started from the working set. -/
def Line.cleared (ln : Line) : Line :=
  { ln with
    state := .clearing, held := none, clearGuard := some ln.working.clearGuard, dialToneWait := false
    digitPos := none, drive := none, loopTimer := none, dialToneTimer := none, digitTimer := none
    pauseTimer := none, answerTimer := none, maxDurationTimer := none, farClearTimer := none
    classifier := Classifier.disabled, reports := ln.reports.map fun r => { r with stale := true } }

/-- Line `l` has cleared and its metering entry is closed; every other line is as it was (R73, R74, R129). -/
def State.ClearsLine (s t : State) (l : LineId) : Prop :=
  t.line l = (s.line l).cleared ∧ t.meter l = none ∧ s.OtherLines t l

/-- The context after its ending step with outcome `o`, its last attempt outcome as given (R9, R11, R20). -/
def Context.ended (x : Context) (last : Option CallOutcome) (o : CallOutcome) : Context :=
  { x with
    state := .ended, due := none, lastOutcome := last, finalOutcome := some o
    currentLine := if x.state = CtxState.onLine then none else x.currentLine
    record := some
      { tag := x.tag, outcome := o, direction := x.direction, origin := x.origin, line := x.lastLine
        attempts := x.attempts, account := x.account, tariff := x.tariff, stamp := x.stamp
        connectedSeconds := x.connectedMs / 1000, units := x.units, charge := x.charge, drops := x.drops } }

/-- What the end of context `c` does to its account (R136): an answered OUTBOUND call leaves the active calls and joins the
completed ones; nothing else of the retained domain changes but the account table's check word. -/
def State.EndBooked (s t : State) (c : CtxId) : Prop :=
  match (s.ctx c).account with
  | some a =>
    if (s.ctx c).direction = .outbound ∧ (s.ctx c).stamp.isSome = true then
      (t.account a = { s.account a with
          active := (s.account a).active - 1, completed := (s.account a).completed + 1 })
        ∧ (∀ b : AccountId, b ≠ a → t.account b = s.account b)
        ∧ isSound (accountTableWords t.retained.accounts) t.retained.accountCheck = true
        ∧ t.retained = { s.retained with
            accounts := t.retained.accounts, accountCheck := t.retained.accountCheck }
    else t.retained = s.retained
  | none => t.retained = s.retained

/-- The ending step of context `c` between `s` and `t`, but for the place it left (R11): the context, its account, the
reference at the tail of the outbox; every other context and the free line list as they were. -/
structure State.EndsContext (s t : State) (c : CtxId) (last : Option CallOutcome) (o : CallOutcome) : Prop where
  ctx : t.ctx c = (s.ctx c).ended last o
  others : s.OtherCtxs t c
  booked : s.EndBooked t c
  report : t.report = s.report.append [{ body := .callEnd c, urgent := (s.ctx c).signalNow }]
  free : t.freeLines = s.freeLines
  keeps : s.Keeps t

/-- Context `c`, ON_LINE on line `l`, has ended and the line clears. -/
structure State.EndsOnLine (s t : State) (l : LineId) (c : CtxId) (last : CallOutcome) (o : CallOutcome) : Prop where
  ends : s.EndsContext t c (some last) o
  clears : s.ClearsLine t l
  waiting : t.waiting = s.waiting
  schedule : t.schedule = s.schedule

/-- Context `c`, on a failed attempt on line `l`, waits in RETRY_WAIT for `interval` seconds (R106 to R108). -/
structure State.EntersRetry (s t : State) (l : LineId) (c : CtxId) (failure : CallOutcome) (interval : Nat) : Prop where
  clears : s.ClearsLine t l
  ctx : ∃ drops : Nat, t.ctx c = { s.ctx c with
    state := .retryWait, currentLine := none, lastOutcome := some failure
    due := some (min (s.uptime + interval) 4294967295), drops := drops }
    ∧ drops = if (s.ctx c).progress && !s.progressRoom then min ((s.ctx c).drops + 1) 255 else (s.ctx c).drops
  others : s.OtherCtxs t c
  schedule : ∃ before after : List CtxId, s.schedule = before ++ after ∧ t.schedule = before ++ c :: after
    ∧ (∀ d ∈ before, t.dueOf d ≤ t.dueOf c) ∧ ∀ d ∈ after.head?, t.dueOf c < t.dueOf d
  waiting : t.waiting = s.waiting
  free : t.freeLines = s.freeLines
  retained : t.retained = s.retained
  report : t.report =
    if (s.ctx c).progress && s.progressRoom then
      s.report.append [s.progressEntry c l (.attemptFailed failure interval) (s.ctx c).attempts]
    else s.report
  keeps : s.Keeps t

/-! ### Takes -/

/-- Intake takes next from ring `r` (R31): RUNNING, a record at its head whose resource is free, the other ring not
ACTIVE. -/
structure State.ReadyToTake (s : State) (r : OrderRing) (need : Need) : Prop where
  running : s.ctl.engine = .running
  record : (s.ring r).hasRecord = true
  resource : s.hasFree need = true
  alone : (s.ring (otherRing r)).state ≠ .active

/-- The state in which the taken record is acted on: its bytes in the head's slot, the streak counter as R31 leaves it. -/
def State.atTake (s : State) (r : OrderRing) (cells : List (Nat × Byte)) : State :=
  { s with
    mem := Memory.writeCells (s.ring r).headAddr cells s.mem
    intake := { s.intake with streak := if r = .routine then 0 else s.intake.streak } }

/-- What considering its head makes of a ring (R28, R29): an ACTIVE ring without a record becomes EMPTY, one whose head needs
a resource that is not free becomes HELD for it. -/
def Ring.judged (x : Ring) (need : Need) (isFree : Bool) : Ring :=
  if x.state = .active ∧ x.consumer = x.cachedProducer then { x with state := .empty }
  else if x.state = .active ∧ isFree = false then { x with state := .held need }
  else x

/-- Ring `r` has a takeable record (R31), its head needing `need`. -/
def State.Takeable (s : State) (r : OrderRing) (need : Need) : Prop :=
  (s.ring r).state = .active ∧ (s.ring r).consumer ≠ (s.ring r).cachedProducer ∧ s.hasFree need = true

/-- A ring one record on: EMPTY when that was the last (R28, R32). -/
def Ring.stepped (x : Ring) : Ring :=
  { x with
    consumer := x.consumer + 1
    state := if x.consumer + 1 = x.cachedProducer then .empty else x.state }

/-- Steps 3 and 4 of a take of ring `r` (R32): the consumer index raised, and written into the ring's header. -/
def State.afterTake (s : State) (r : OrderRing) : State :=
  (s.setRing r (s.ring r).stepped).storeCells (s.ring r).header (cellsAt 4 (halfBytes ((s.ring r).consumer + 1)))

/-- A REQUEST_DONE joins the tail of the outbox (R33). -/
def State.replied (s : State) (tag : Half) (kind : Byte) (status : DoneStatus) (data : Option (AccountId × Account))
    (urgent : Bool) : State :=
  { s with
    report := s.report.append
      [{ body := .done { tag := tag, kind := kind, status := status, data := data }, urgent := urgent }] }

/-! ### Commands of the control block -/

/-- The state in which a register write is acted on, the host's stores made (log 11). -/
def State.withStores (s : State) (stores : HostStores) : State :=
  { s with mem := Memory.hostStores stores s.mem }

/-- The line at the entry to HALTED (R79, R96): IDLE, the relay open, every timer and qualifier stopped, the levels at its
inputs and their qualified values kept. -/
def Line.halted (ln : Line) : Line :=
  { ln.cleared with
    state := .idle, clearGuard := none, disablePending := false, ringGap := none, announced := false
    loopQual := none, toneQual := none, ringQual := none }

/-- The entry to HALTED between `s` and `t` (R166). -/
structure State.EntersHalted (s t : State) (cause : ErrorCode) : Prop where
  ctl : t.ctl = { s.ctl with engine := .halted, error := cause }
  lines : ∀ l : LineId, t.line l = (s.line l).halted ∧ t.meter l = none
  free : t.freeLines = s.freeLines ++ allLines.filter fun l => decide ((s.line l).state ≠ .idle)
  report : t.report = { s.report with
    sigPending := true, holdTimer := .stopped
    unsignalled := if s.report.sigPending then s.report.unsignalled else 0 }
  rest : t = { s with ctl := t.ctl, lines := t.lines, freeLines := t.freeLines, meters := t.meters, report := t.report }

/-- The active contexts of a kind whose end counts on account `a` (R136). -/
def State.booked (s : State) (which : CtxState → Bool) (a : AccountId) : Nat :=
  allContexts.countP fun c =>
    which (s.ctx c).state && decide ((s.ctx c).direction = .outbound) && (s.ctx c).stamp.isSome
      && decide ((s.ctx c).account = some a)

/-- The references that ending the contexts of a kind appends, in ascending context number (R21). -/
def State.endRefs (s : State) (which : CtxState → Bool) : List OutboxEntry :=
  (allContexts.filter fun c => which (s.ctx c).state).map fun c =>
    { body := .callEnd c, urgent := (s.ctx c).signalNow }

/-- Account `a` after `k` of its answered OUTBOUND calls have ended (R136). -/
def Account.afterEnds (a : Account) (k : Nat) : Account :=
  { a with active := a.active - k, completed := a.completed + BitVec.ofNat 16 k }

/-- Step 1 of an accepted START (R160, R155) and the geometry of the report ring (R145). -/
def State.withSetup (s : State) (p : Setup) : State :=
  let raised := !s.report.sigPending && decide (p.batch ≤ s.report.unsignalled)
  { s with
    ctl := { s.ctl with setup := p }
    lines := s.lines.map fun ln => { ln with stored := { ln.stored with qualify := p.qualify } }
    report := { s.report with
      base := p.reportBase, size := p.reportSize, header := p.reportHeader, holdTime := p.holdTime, batch := p.batch
      sigPending := s.report.sigPending || raised
      unsignalled := if raised then 0 else s.report.unsignalled
      holdTimer := if raised then .stopped else s.report.holdTimer } }

/-- The report writer after UNSOLICITED reports handed to it in order (R147): queued urgent with the stamp as far as there is
room, the others counted as missed. -/
def ReportWriter.withUnsolicited (r : ReportWriter) (stamp : Stamp) (kinds : List UnsolicitedKind) : ReportWriter :=
  let room := 8 - r.outbox.countP OutboxEntry.isUnsolicited
  { r with
    outbox := r.outbox ++ (kinds.take room).map fun k =>
      { body := .unsolicited { kind := k, stamp := stamp }, urgent := true }
    missed := if kinds.length ≤ room then r.missed else min (r.missed + (kinds.length - room)) 255 }

/-- The unsolicited reports that START queues, in order (R160): STARTED, then RING_FAULT for each ring found malformed. -/
def startReports (started : UnsolicitedKind) (first : OrderRing) (malformed : OrderRing → Bool) : List UnsolicitedKind :=
  started :: ([first, otherRing first].filter malformed).map .ringFault

/-- The qualifiers of a line begin to run as a reset ends (R59, R92): an input that stands otherwise than its qualified
value is timed. -/
def Line.timingInputs (ln : Line) : Line :=
  { ln with
    loopQual := if patternOf ln.senseA ln.senseB = ln.loopPattern then none else some ln.qualifyTime
    toneQual := if ln.toneRaw = ln.tonePresent then none else some ln.qualifyTime
    ringQual := if ln.ringRaw = ln.ringLevel then none else some 200 }

/-- Every block at its reset values between `s` and `t` (R22, R23, R43, R46, R104, R108, R129, R144, R163, R164), the
retained domain, shared memory and the queue as they were. -/
structure State.BlocksReset (s t : State) (cause : ResetCause) : Prop where
  ctl : t.ctl = Control.atReset cause
  intake : t.intake = Intake.initial
  ctxs : ∀ c : CtxId, t.ctx c = Context.cleared
  waiting : t.waiting = { urgent := [], routine := [] }
  free : t.freeLines = [0, 1, 2, 3, 4, 5, 6, 7]
  schedule : t.schedule = []
  uptime : t.uptime = 0 ∧ t.uptimeMs = 0
  meters : ∀ l : LineId, t.meter l = none
  report : t.report = ReportWriter.initial
  rest : t.retained = s.retained ∧ t.mem = s.mem ∧ t.seed = s.seed ∧ t.pending = s.pending

/-- What the access that a power-on reset cuts has left behind (R163, R41, log 19): the record of a post in progress written in
part, a retained table whose write was cut as a free value. -/
def State.cutAccess (s : State) (cut : PowerCut) : State :=
  match cut, s.report.outbox with
  | .record landed, e :: _ =>
    let part := (cellsAt 0 (s.entryBytes e)).filter fun cell => landed.getLsbD cell.1
    let slot := slotAddr s.report.base s.report.size s.report.producer
    if s.mayPost then { s with mem := Memory.writeCells slot part s.mem } else s
  | .table which, _ =>
    if which = .calendar ∨ s.inReset = false then
      { s with retained := s.retained.cutTable (Config.lostRetained s.seed) which, seed := s.seed + 1 }
    else s
  | _, _ => s

/-- What a power-on reset finds of shared memory and the retained domain (R163): the access in progress cut, and the whole
retained content as a free value when VDD falls without a battery (log 14). -/
def State.afterCut (s : State) (vdd : VddCrossing) : State :=
  let u := s.cutAccess vdd.cut
  if vdd.above = true ∨ s.power.vbatPresent = true then u
  else { u with retained := Config.lostRetained u.seed, seed := u.seed + 1 }

/-! ### Requests -/

/-- Line `l` replaced. -/
def State.withLine (s : State) (l : LineId) (x : Line) : State := { s with lines := s.lines.set l x }

/-- Context `c` replaced. -/
def State.withCtx (s : State) (c : CtxId) (x : Context) : State := { s with ctxs := s.ctxs.set c x }

/-- Account `a` replaced, the check word of the account table made anew (R128). -/
def State.withAccount (s : State) (a : AccountId) (x : Account) : State :=
  { s with retained := s.retained.setAccounts (s.retained.accounts.set a x) }

/-- Context `c` is the lowest-numbered FREE one (R1). -/
def State.LowestFree (s : State) (c : CtxId) : Prop :=
  (s.ctx c).state = .free ∧ ∀ d : CtxId, d < c → (s.ctx d).state ≠ .free

/-- Context `c` is the active context that carries the tag, and no other does (R15). -/
def State.CarriesAlone (s : State) (c : CtxId) (tag : Half) : Prop :=
  ∀ d : CtxId, ((s.ctx d).state.isActive = true ∧ (s.ctx d).tag = tag) ↔ d = c

/-- No active context carries the tag (R15). -/
def State.TagUnused (s : State) (tag : Half) : Prop :=
  ∀ d : CtxId, (s.ctx d).state.isActive = true → (s.ctx d).tag ≠ tag

/-- The status of a CANCEL or RELEASE whose target no active context carries (R18, R19). -/
def State.MissedStatus (s : State) (target : Half) (status : DoneStatus) : Prop :=
  ((∃ d : CtxId, (s.ctx d).state = .ended ∧ (s.ctx d).tag = target) → status = .tooLate)
    ∧ ((∀ d : CtxId, (s.ctx d).state = .ended → (s.ctx d).tag ≠ target) → status = .noSuchTag)

/-- The codes of the twelve tone symbols, in the bytes of a record (R172). -/
def symbolBytes (symbols : List (Fin 12)) : List Byte := symbols.map fun d => BitVec.ofNat 8 d.val

/-- A prefix class by its byte (R172). -/
def PrefixClass.byte : PrefixClass → Byte
  | .tariff c => BitVec.ofNat 8 c.val
  | .barred => 0x0F

/-- A day set by its byte (R172). -/
def DaySet.byte : DaySet → Byte
  | .all => 0
  | .workdays => 1
  | .restdays => 2

/-- An entry of the prefix table whose symbols stand at the start of a number (R116). -/
def PrefixEntry.Matches (e : PrefixEntry) (number : List Nat) : Prop := (e.symbols.map fun d => d.val) <+: number

/-- Entry `i` decides for a number: it matches, no matching entry is longer, none of its length has a lower index (R117). -/
def State.Decides (s : State) (i : Fin 64) (e : PrefixEntry) (number : List Nat) : Prop :=
  s.retained.prefixes[i] = some e ∧ e.Matches number
    ∧ ∀ (j : Fin 64) (f : PrefixEntry), s.retained.prefixes[j] = some f → f.Matches number →
      f.symbols.length < e.symbols.length ∨ (f.symbols.length = e.symbols.length ∧ i ≤ j)

/-- The class that a number resolves to (R117), when it is not barred. -/
def State.ResolvesTo (s : State) (number : List Nat) (cls : Option ClassId) : Prop :=
  (∃ (i : Fin 64) (e : PrefixEntry) (c : ClassId), s.Decides i e number ∧ e.cls = .tariff c ∧ cls = some c)
    ∨ ((∀ (i : Fin 64) (e : PrefixEntry), s.retained.prefixes[i] = some e → ¬ e.Matches number)
      ∧ cls = s.ctl.setup.defaultClass)

/-- The policy that a PLACE_CALL names, present (R3, R14 check 2). -/
def State.NamesPolicy (s : State) (rec : PlaceCallRec) (p : Policy) : Prop :=
  (rec.policy.toNat = 255 ∧ p = { limit := 1, intervals := [], outcomes := 0 })
    ∨ ∃ i : Fin 8, rec.policy.toNat = i.val ∧ s.retained.policies[i] = some p

/-- A line of the mask is neither DISABLED nor FAULT (R14 check 6). -/
def State.MaskHasUsable (s : State) (mask : BitVec 8) : Prop :=
  ∃ l : LineId, mask.getLsbD l.val = true ∧ (s.line l).state ≠ .disabled ∧ (s.line l).state ≠ .fault

/-- A band of the class is present (R14 check 5). -/
def State.ClassHasBand (s : State) (c : ClassId) : Prop := ∃ b : Fin 4, s.retained.bands[c][b].isSome = true

/-! ### Lines -/

/-- The happenings of a line arise (R59, R79): no reset is in force and the engine is not HALTED. -/
def State.LinesRun (s : State) : Prop := s.inReset = false ∧ s.ctl.engine ≠ .halted

/-- Line `l` is off-hook, held by context `c`, which is ON_LINE and names it (R56). -/
structure State.Holds (s : State) (l : LineId) (c : CtxId) : Prop where
  held : (s.line l).held = some c
  onLine : (s.ctx c).state = .onLine
  current : (s.ctx c).currentLine = some l
  offHook : (s.line l).state.offHook = true

/-- The snapshot allows a failed attempt to be retried (R105): the failure is in its retry outcome set (bits by R172) and an
attempt is left. -/
def Context.MayRetry (x : Context) (failure : CallOutcome) : Prop :=
  (match failure with
    | .busy => x.snapshot.outcomes.getLsbD 0
    | .noAnswer => x.snapshot.outcomes.getLsbD 1
    | .congestion => x.snapshot.outcomes.getLsbD 2
    | .noDialtone => x.snapshot.outcomes.getLsbD 3
    | .noLoop => x.snapshot.outcomes.getLsbD 4
    | _ => false) = true
    ∧ x.attempts < x.snapshot.limit

/-- An attempt or call of context `c` on line `l` has ended between `s` and `t` with an attempt failure (R73, R105 to R108,
R13): an INBOUND context ends, an OUTBOUND one is judged, and waits for the interval of its attempt count; a snapshot without
an interval, which only a damaged policy table gives, leaves the wait open (log 26). -/
def State.AttemptFails (s t : State) (l : LineId) (c : CtxId) (failure : CallOutcome) : Prop :=
  let x := s.ctx c
  let retry := x.direction = .outbound ∧ x.MayRetry failure
  let windingDown := s.ctl.engine = .draining ∨ s.ctl.engine = .aborting
  (retry → ¬ windingDown → s.uptime < 4294967295 → ∃ interval : Nat, s.EntersRetry t l c failure interval
      ∧ ∀ k : Nat, x.snapshot.intervals[min x.attempts x.snapshot.intervals.length - 1]? = some k → interval = k)
    ∧ (retry → windingDown → s.EndsOnLine t l c failure .withdrawn)
    ∧ (¬ retry ∨ (¬ windingDown ∧ s.uptime = 4294967295) → s.EndsOnLine t l c failure failure)

/-- The classifier enabled afresh (R81); reports of an earlier enabled period are stale (R90). -/
def Line.listening (ln : Line) : Line :=
  { ln with
    classifier :=
      { enabled := true, cls := .unknown, level := ln.tonePresent, periodOn := ln.tonePresent, elapsed := 0
        whole := false, cycleOn := none, matchCount := 0, matchKind := none }
    reports := ln.reports.map fun r => { r with stale := true } }

/-- The classifier disabled (R82); reports of its enabled period are stale (R90). -/
def Line.deaf (ln : Line) : Line :=
  { ln with classifier := Classifier.disabled, reports := ln.reports.map fun r => { r with stale := true } }

/-- A symbol begun at a digit position (R63 to R66). -/
def Line.sending (ln : Line) (pos : Nat) : Symbol → Line
  | .tone k => { ln with digitPos := some pos, drive := some k, digitTimer := some ln.working.toneTime }
  | .pause => { ln with digitPos := some pos, pauseTimer := some 2000 }
  | .wait => { ln.listening with digitPos := some pos, dialToneTimer := some 10000 }

/-- AWAIT_ANSWER entered for a context with the given answer timeout (R67). -/
def Line.awaiting (ln : Line) (timeout : Nat) : Line :=
  { ln.listening with
    state := .awaitAnswer, digitPos := none
    answerTimer := some ((if timeout = 0 then ln.working.answerDefault else timeout) * 1000) }

/-- The digit string of a context. -/
def Context.symbols (x : Context) : List Symbol := x.digits.getD []

/-- The line connected (R69, R99): the timers of the attempt and the far-clear timer stopped, the classifier disabled, the
max-duration timer started. -/
def Line.connected (ln : Line) (state : LineState) (maxDuration : Nat) : Line :=
  { ln.deaf with
    state := state, answerTimer := none, loopTimer := none, farClearTimer := none
    maxDurationTimer := if maxDuration = 0 then none else some (maxDuration * 1000) }

/-- What a judged cycle makes of class, match count and match kind (R86 to R89). -/
def Classifier.afterCycle (k : Classifier) (on off : Nat) : ToneClass × Nat × Option MatchKind :=
  if 350 ≤ on ∧ on ≤ 650 ∧ 350 ≤ off ∧ off ≤ 650 then
    if k.matchKind = some .busy ∧ 1 ≤ k.matchCount then (.busy, 2, some .busy) else (k.cls, 1, some .busy)
  else if 150 ≤ on ∧ on ≤ 349 ∧ 150 ≤ off ∧ off ≤ 349 then
    if k.matchKind = some .congestion ∧ 1 ≤ k.matchCount then (.congestion, 2, some .congestion)
    else (k.cls, 1, some .congestion)
  else if 700 ≤ on ∧ on ≤ 1500 ∧ 2000 ≤ off ∧ off ≤ 5000 then (.ringback, 0, none)
  else (.unknown, 0, none)

/-- A classifier report of a new class at the tail of those not yet taken; none when the class is the old one (R90). -/
def Line.reported (ln : Line) (cls : ToneClass) : List ClassReport :=
  if ln.classifier.cls = cls then ln.reports else ln.reports ++ [{ cls := cls, stale := false }]

/-- The band in force for a class (R120, R121), or none. -/
def State.InForce (s : State) (c : ClassId) (b : Option Band) : Prop :=
  let dow := s.retained.calendar.day.toNat % 7
  let onDay := fun (x : Band) (d : Nat) => match x.daySet with
    | .all => True
    | .workdays => d ≤ 4
    | .restdays => 5 ≤ d
  let fits := fun (x : Band) => onDay x dow ∧ x.start ≤ s.retained.calendar.second
  let latest := fun (p : Band → Prop) (i : Fin 4) (x : Band) => s.retained.bands[c][i] = some x ∧ p x
    ∧ ∀ (j : Fin 4) (y : Band), s.retained.bands[c][j] = some y → p y →
      y.start < x.start ∨ (y.start = x.start ∧ i ≤ j)
  let none' := fun (p : Band → Prop) => ∀ (j : Fin 4) (y : Band), s.retained.bands[c][j] = some y → ¬ p y
  if s.retained.calendar.valid then
    (∃ i x, latest fits i x ∧ b = some x)
      ∨ (none' fits ∧ ∃ i x, latest (fun x => onDay x ((dow + 6) % 7)) i x ∧ b = some x)
      ∨ (none' fits ∧ none' (fun x => onDay x ((dow + 6) % 7)) ∧ b = none)
  else
    (∃ (i : Fin 4) (x : Band), s.retained.bands[c][i] = some x ∧ (∀ j < i, s.retained.bands[c][j] = none) ∧ b = some x)
      ∨ ((∀ j : Fin 4, s.retained.bands[c][j] = none) ∧ b = none)

/-- The account lets a charge be applied (R130). -/
def Account.Pays (a : Account) (amount : Nat) : Prop := a.limited = false ∨ amount = 0 ∨ a.total + amount ≤ a.limit

/-- The account with an applied charge (R130). -/
def Account.charged (a : Account) (amount : Nat) : Account := { a with total := min (a.total + amount) 4294967295 }

/-- A unit of price `price` that starts at `at` of the line's timer, its charge already applied (R131 steps 6 and 7, R132
steps 3 and 4, R134), on entry `e` of line `l` whose account then stands at `a`: entry, context and report writer. -/
structure State.UnitRuns (s t : State) (l : LineId) (e : MeterEntry) (startsAt : Nat) (price : UnitPrice) (a : Account)
    (x : Context) : Prop where
  meter : t.meter l = some
    { e with
      unitNumber := min (e.unitNumber + 1) 65535, unitCharge := price.unitCharge, unitPeriod := price.period
      nextStart := startsAt + price.period * 1000
      warned := e.warned || (a.limited && decide (a.limit < a.total + price.unitCharge)) }
  ctx : t.ctx e.ctx = { x with
    units := min (e.unitNumber + 1) 65535
    drops := if a.limited && decide (a.limit < a.total + price.unitCharge) && !e.warned && !s.progressRoom then
      min (x.drops + 1) 255 else x.drops }
  report : t.report =
    if a.limited && decide (a.limit < a.total + price.unitCharge) && !e.warned && s.progressRoom then
      s.report.append
        [{ body := .progress { tag := x.tag, kind := .limitWarning (a.limit - a.total), line := l, attempts := x.attempts }
           urgent := true }]
    else s.report

end Sys2Proof.Machine

namespace Sys2Proof

open Machine

/-- A SET_LINE record with every field in its range (R34). -/
def SetLineRec.InRange (rec : SetLineRec) : Prop :=
  rec.line.toNat < 8 ∧ rec.enable.toNat < 2 ∧ rec.dialToneRequired.toNat < 2
    ∧ (16 ≤ rec.qualify.toNat ∧ rec.qualify.toNat ≤ 96)
    ∧ (1 ≤ rec.seizeTimeout.toNat ∧ rec.seizeTimeout.toNat ≤ 20)
    ∧ (10 ≤ rec.answerDefault.toNat ∧ rec.answerDefault.toNat ≤ 180)
    ∧ (40 ≤ rec.toneTime.toNat ∧ rec.toneTime.toNat ≤ 200)
    ∧ (40 ≤ rec.gapTime.toNat ∧ rec.gapTime.toNat ≤ 200)
    ∧ (500 ≤ rec.clearGuard.toNat ∧ rec.clearGuard.toNat ≤ 4000)

/-- The parameters that a SET_LINE record carries (R34). -/
def SetLineRec.params (rec : SetLineRec) : LineParams :=
  { qualify := rec.qualify.toNat, seizeTimeout := rec.seizeTimeout.toNat, answerDefault := rec.answerDefault.toNat
    toneTime := rec.toneTime.toNat, gapTime := rec.gapTime.toNat, dialToneRequired := decide (rec.dialToneRequired = 1)
    clearGuard := rec.clearGuard.toNat }

/-- A LOAD_PREFIX record with a field that counts out of its range (R36). -/
def LoadPrefixRec.OutOfRange (rec : LoadPrefixRec) : Prop :=
  64 ≤ rec.index.toNat ∨ 2 ≤ rec.present.toNat
    ∨ (rec.present = 1 ∧ (rec.length.toNat = 0 ∨ 12 < rec.length.toNat
        ∨ (∃ b ∈ rec.symbols.toList.take rec.length.toNat, 12 ≤ b.toNat) ∨ 15 < rec.cls.toNat))

/-- A LOAD_BAND record with a field that counts out of its range (R37). -/
def LoadBandRec.OutOfRange (rec : LoadBandRec) : Prop :=
  15 ≤ rec.cls.toNat ∨ 4 ≤ rec.band.toNat ∨ 2 ≤ rec.present.toNat
    ∨ (rec.present = 1 ∧ (3 ≤ rec.daySet.toNat ∨ 86399 < rec.start.toNat ∨ rec.period.toNat = 0
        ∨ 3600 < rec.period.toNat))

/-- A SET_POLICY record with a field that counts out of its range (R38). -/
def SetPolicyRec.OutOfRange (rec : SetPolicyRec) : Prop :=
  8 ≤ rec.index.toNat ∨ 2 ≤ rec.present.toNat
    ∨ (rec.present = 1 ∧ (rec.limit.toNat = 0 ∨ 8 < rec.limit.toNat ∨ rec.count.toNat = 0 ∨ 6 < rec.count.toNat
        ∨ (∃ k ∈ rec.intervals.toList.take rec.count.toNat, k.toNat < 5 ∨ 3600 < k.toNat)
        ∨ 32 ≤ rec.outcomes.toNat))

/-- A PLACE_CALL record with every field in its range, check 1 of R14. -/
def PlaceCallRec.FieldsInRange (rec : PlaceCallRec) : Prop :=
  rec.account.toNat < 32 ∧ (rec.policy.toNat < 8 ∨ rec.policy.toNat = 255)
    ∧ (rec.answerTimeout.toNat = 0 ∨ (10 ≤ rec.answerTimeout.toNat ∧ rec.answerTimeout.toNat ≤ 180))
    ∧ 1 ≤ rec.digitCount.toNat ∧ rec.digitCount.toNat ≤ 24
    ∧ ∀ b ∈ rec.digits.toList.take rec.digitCount.toNat, b.toNat < 14

/-- The dialled number of a PLACE_CALL: the counted digits without P and W (R116). -/
def PlaceCallRec.number (rec : PlaceCallRec) : List Nat :=
  ((rec.digits.toList.take rec.digitCount.toNat).map BitVec.toNat).filter fun k => decide (k < 12)

/-- The context that intake makes of a PLACE_CALL record, before it is decided (R2, R3, R7). -/
def PlaceCallRec.context (rec : PlaceCallRec) (r : OrderRing) (snapshot : Policy) (tariff : Option ClassId) : Context :=
  { Context.cleared with
    tag := rec.tag, origin := r, account := rec.accountId, tariff := tariff
    mask := if rec.mask = 0 then 0xFF else rec.mask
    signalNow := rec.flags.getLsbD 0, progress := rec.flags.getLsbD 1
    answerTimeout := rec.answerTimeout.toNat, maxDuration := rec.maxDuration.toNat, digits := rec.symbols
    snapshot := snapshot }

/-- The context that intake makes of an ACCEPT record (R2, R3, R7). -/
def AcceptRec.context (rec : AcceptRec) (r : OrderRing) : Context :=
  { Context.cleared with
    tag := rec.tag, direction := .inbound, origin := r
    mask := if rec.line.toNat < 8 then BitVec.ofNat 8 (2 ^ rec.line.toNat) else 0
    signalNow := rec.flags.getLsbD 0, progress := rec.flags.getLsbD 1, maxDuration := rec.maxDuration.toNat }

end Sys2Proof
end

