-- ==== Sys2Proof/Certificates/Slice0/Obligations.lean ====
section
/-! DEFINITION. The statements about the DL8 for the provers: one definition each, read beside the rule of spec/ that its
docstring names. -/

open Sys2Proof Sys2Proof.Machine

/-! ## The queue, the reset state and the invariants -/

/-- One step takes the command at the front of the queue and runs exactly it on the state with the queue's rest. The queue
is the model's own (log 20). -/
def Obligations.StepRunsFrontCommand : Prop :=
  ∀ (i : Instr) (rest : List Instr) (s : State),
    step { s with pending := i :: rest } = exec i { s with pending := rest }

/-- The values that R22, R23, R43, R46, R56, R104, R108, R129, R144 and R164 state for every reset. The retained domain, the
raw inputs and the reset cause are left out: their values are the model's choices (logs 2, 3, 4). -/
def Obligations.ResetLeavesStatedValues : Prop :=
  (∀ c : CtxId, State.reset.ctx c = Context.cleared)
    ∧ State.reset.intake = { urgent := Ring.initial, routine := Ring.initial, streak := 0 }
    ∧ State.reset.waiting = { urgent := [], routine := [] }
    ∧ State.reset.freeLines = [0, 1, 2, 3, 4, 5, 6, 7]
    ∧ (∀ l : LineId, (State.reset.line l).state = .idle
        ∧ (State.reset.line l).stored =
          { qualify := 32, seizeTimeout := 5, answerDefault := 40, toneTime := 80, gapTime := 80
            dialToneRequired := true, clearGuard := 1000 }
        ∧ (State.reset.line l).loopPattern = .noLoop ∧ (State.reset.line l).tonePresent = false
        ∧ (State.reset.line l).held = none ∧ (State.reset.line l).drive = none
        ∧ (State.reset.line l).disablePending = false ∧ (State.reset.line l).ringLevel = false
        ∧ (State.reset.line l).classifier = Classifier.disabled ∧ State.reset.meter l = none)
    ∧ State.reset.schedule = [] ∧ State.reset.uptime = 0
    ∧ State.reset.ctl.engine = .checking ∧ State.reset.ctl.error = .none
    ∧ State.reset.ctl.urgentFault = false ∧ State.reset.ctl.routineFault = false
    ∧ State.reset.ctl.setup = Setup.initial ∧ State.reset.ctl.setupAddr = 0
    ∧ State.reset.ctl.status = TableStatus.allValid
    ∧ State.reset.report = ReportWriter.initial

/-- The state right after reset meets every invariant stated below. That its retained tables are sound, with the policies in
range, rests on the model's choice of their content and check words (log 2), that its memory is canonical on the model's form
of memory (log 8). -/
def Obligations.ResetMeetsInvariants : Prop :=
  State.reset.MemoryCanonical ∧ State.reset.FreeListExact ∧ State.reset.ListsExact ∧ State.reset.OutboxExact
    ∧ State.reset.LinesExact ∧ State.reset.AttemptsInLimit ∧ State.reset.PoliciesInRange
    ∧ State.reset.SnapshotsInRange ∧ State.reset.TagsUnique ∧ (∀ l : LineId, (State.reset.line l).SignallingExact)
    ∧ State.reset.RingsBounded ∧ State.reset.SignalKept ∧ State.reset.retained.Sound

/-- Every step keeps shared memory in the model's canonical form (log 8). -/
def Obligations.MemoryStaysCanonical : Prop :=
  ∀ s t : State, s.MemoryCanonical → step s = .next t → t.MemoryCanonical

/-- Every step keeps the free line list exactly the IDLE lines, each once (R46). -/
def Obligations.FreeListStaysExact : Prop :=
  ∀ s t : State, s.FreeListExact → step s = .next t → t.FreeListExact

/-- Every step keeps the waiting list exactly the PENDING contexts in the parts of their origin classes (R8, R43) and the
retry schedule exactly the RETRY_WAIT contexts in due order (R108), a retry due uptime present in exactly those (R5); and no
two active contexts carrying one tag (R15). -/
def Obligations.WaitingListsStayExact : Prop :=
  (∀ s t : State, s.ListsExact → step s = .next t → t.ListsExact)
    ∧ ∀ s t : State, s.ListsExact → s.TagsUnique → step s = .next t → t.TagsUnique

/-- Every step keeps the outbox within its quotas, with one reference to each ENDED context and none to any other
(R12, R146). -/
def Obligations.OutboxStaysExact : Prop :=
  ∀ s t : State, s.ListsExact → s.OutboxExact → step s = .next t → t.OutboxExact

/-- Every step keeps lines and ON_LINE contexts holding each other, and metering entries open on CONNECTED lines alone
(R9, R56, R129), and each line's digit-tone drive and classifier as its state gives them (R57). -/
def Obligations.LinesStayExact : Prop :=
  (∀ s t : State, s.ListsExact → s.FreeListExact → s.LinesExact → step s = .next t → t.LinesExact)
    ∧ ∀ s t : State, s.FreeListExact → (∀ l : LineId, (s.line l).SignallingExact) → step s = .next t →
      ∀ l : LineId, (t.line l).SignallingExact

/-- Every step keeps each attempt count within the limit of its snapshot (R4, R50), each snapshot that of NONE or a policy in
its range (R103), and every entry of the policy table in its range: a limit of 1 to 8, one to six intervals of 5 to 3600 s
(R102), but for a loss of the retained content. -/
def Obligations.AttemptsStayInLimit : Prop :=
  ∀ s t : State, s.ListsExact → s.PoliciesInRange → s.SnapshotsInRange → s.AttemptsInLimit → step s = .next t →
    t.AttemptsInLimit ∧ t.SnapshotsInRange ∧ (s.RetainedHolds → t.PoliciesInRange)

/-- Every step keeps each ring that is not FAULTED within its size, the report ring once adopted (R24, R148), outside
HALTED. -/
def Obligations.RingsStayBounded : Prop :=
  ∀ s t : State, s.RingsBounded → step s = .next t → t.RingsBounded

/-- Every step keeps the signal state: with the pending flag clear the unsignalled count stands below the batch count and the
hold timer is not EXPIRED (R153). -/
def Obligations.SignalStaysKept : Prop :=
  ∀ s t : State, s.SignalKept → step s = .next t → t.SignalKept

/-- Every step keeps each retained table in agreement with its check word (R41, R165), but for a loss of the retained
content. -/
def Obligations.RetainedTablesStaySound : Prop :=
  ∀ s t : State, s.retained.Sound → s.RetainedHolds → step s = .next t → t.retained.Sound

/-- No step carries the total of a limited account past its limit: what stands above it stood there before (R130, R137,
R138), but for a loss of the retained content. -/
def Obligations.NoChargePassesLimit : Prop :=
  ∀ (s t : State) (a : AccountId), s.RetainedHolds → step s = .next t → (t.account a).limited = true →
    (t.account a).total ≤ max (s.account a).total (t.account a).limit

/-- HALTED is left only by a reset (R158), and until then contexts, lists, schedule, outbox, order rings and lines keep what
they hold and no metering entry opens (R166, R167). -/
def Obligations.HaltedStaysFrozen : Prop :=
  ∀ (i : Instr) (s : State), s.ctl.engine = .halted → i ≠ .reset → i ≠ .resetnAssert →
    (∀ vdd : VddCrossing, i ≠ .powerOnReset vdd) →
    ∃ t : State, exec i s = .next t ∧ t.ctl.engine = .halted ∧ t.ctl.error = s.ctl.error ∧ t.ctxs = s.ctxs
      ∧ s.SameLists t ∧ t.meters = s.meters ∧ t.intake = s.intake ∧ t.report.outbox = s.report.outbox
      ∧ t.report.producer = s.report.producer ∧ t.report.cachedConsumer = s.report.cachedConsumer
      ∧ (t.report.sigPending = true → s.report.sigPending = true ∨ s.report.holdTimer ≠ .stopped)
      ∧ ∀ l : LineId, (t.line l).state = (s.line l).state ∧ (t.line l).held = (s.line l).held

/-! ## The bytes of a request record -/

/-- A request record read back from the bytes that its fields were written as is the command it was written from, whatever
stands in the bytes that its kind does not assign (R168, R169, R172). -/
def Obligations.RequestRecordReadsBack : Prop :=
  ∀ (i : Instr) (r : OrderRing) (bus : TakeBus) (cells : List (Nat × Byte)) (under : Nat → Byte),
    i.wellFormed = true → i.take = some (r, bus, cells) → decodeRequest r bus (overlay cells under) = i

/-! ## Commands of the control block -/

/-- The five registers as read, with the codes of R170 (R156), which commands a value written to CONTROL or POST gives (R157,
R170), and writes to the register words without a command of their own: SETUP_ADDR is stored in every engine state, STATE is
read-only; while a reset is in force no register write has an effect (R163), the host's own stores to shared memory apart
(log 11). The outputs of a line (R57, R64, R172): relay, digit-tone enable, digit code. -/
def Obligations.RegistersReadAndWrite : Prop :=
  ∀ (v : Word) (s : State),
    (s.readRegister 0).extractLsb' 0 3 = (match s.ctl.engine with
        | .checking => 0 | .ready => 1 | .running => 2 | .draining => 3 | .aborting => 4 | .halted => 5)
      ∧ (s.readRegister 0).extractLsb' 3 1 = 0
      ∧ (s.readRegister 0).extractLsb' 4 4 = (match s.ctl.error with
        | .none => 0 | .wrongState => 1 | .badCommand => 2 | .badSetup => 3 | .memoryFault => 4 | .badReportIndex => 5)
      ∧ (s.readRegister 0).getLsbD 8 = s.ctl.urgentFault ∧ (s.readRegister 0).getLsbD 9 = s.ctl.routineFault
      ∧ (s.readRegister 0).extractLsb' 10 6 = 0
      ∧ (s.readRegister 0).getLsbD 16 = s.ctl.status.prefixes ∧ (s.readRegister 0).getLsbD 17 = s.ctl.status.bands
      ∧ (s.readRegister 0).getLsbD 18 = s.ctl.status.accounts
      ∧ (s.readRegister 0).getLsbD 19 = s.ctl.status.policies
      ∧ (s.readRegister 0).getLsbD 20 = s.ctl.status.calendar
      ∧ (s.readRegister 0).getLsbD 21 = s.retained.calendar.valid
      ∧ (s.readRegister 0).extractLsb' 22 2 = 0
      ∧ (s.readRegister 0).extractLsb' 24 2 = (match s.ctl.cause with
        | .power => 0 | .pin => 1 | .soft => 2)
      ∧ (s.readRegister 0).extractLsb' 26 6 = 0
      ∧ (s.readRegister 12).getLsbD 0 = s.report.sigPending ∧ (s.readRegister 12).extractLsb' 1 31 = 0
      ∧ s.readRegister 4 = 0 ∧ s.readRegister 8 = 0 ∧ s.readRegister 16 = 0
      ∧ (s.inReset = false → exec (.setupAddrWrite v) s = .next { s with ctl := { s.ctl with setupAddr := v } })
      ∧ (s.inReset = true →
        (∀ i ∈ [Instr.setupAddrWrite v, .quiesce, .abort, .reset, .badCommand v, .signalAcknowledge],
            exec i s = .next s)
          ∧ ∀ (stores : HostStores) (r : OrderRing) (bus : StartBus) (e : Bool),
            ∀ i ∈ [Instr.start stores r bus, .orderRingPost stores r e, .reportPostBit stores e],
              exec i s = .next (s.withStores stores))
      ∧ exec (.readOnlyRegisterWrite v) s = .next s
      ∧ (∀ (stores : HostStores) (first : OrderRing) (bus : StartBus),
        let bits := v.extractLsb' 0 3
        (v.getLsbD 3 = true → decodeControl stores first bus v = .reset)
          ∧ (v.getLsbD 3 = false →
            (bits = 1 → decodeControl stores first bus v = .start stores first bus)
              ∧ (bits = 2 → decodeControl stores first bus v = .quiesce)
              ∧ (bits = 4 → decodeControl stores first bus v = .abort)
              ∧ (bits ∉ [1, 2, 4] → decodeControl stores first bus v = .badCommand v)))
      ∧ (∀ (stores : HostStores) (i : Instr), i ∈ decodePost stores v ↔
        (v.getLsbD 0 = true ∧ i = .orderRingPost stores .urgent false)
          ∨ (v.getLsbD 1 = true ∧ i = .orderRingPost stores .routine false)
          ∨ (v.getLsbD 2 = true ∧ i = .reportPostBit stores false))
      ∧ ∀ l : LineId,
        (s.seizeRelay l = true
            ↔ (s.line l).state ∈ [.seize, .dialing, .awaitAnswer, .connected, .answering, .connectedIn])
          ∧ s.digitEnable l = (s.line l).drive.isSome
          ∧ ((s.line l).drive = none → s.digitCode l = 0)
          ∧ ∀ k : Fin 12, (s.line l).drive = some k → s.digitCode l = k.val

/-- Commands that R157 and R158 do not accept change the error code alone; in HALTED they change nothing. -/
def Obligations.RefusedCommandsSetErrorOnly : Prop :=
  ∀ (stores : HostStores) (first : OrderRing) (bus : StartBus) (v : Word) (s : State), s.inReset = false →
    (s.ctl.engine ∈ [.checking, .running, .draining, .aborting] →
        exec (.start stores first bus) s
          = .next { s.withStores stores with ctl := { s.ctl with error := .wrongState } })
      ∧ (s.ctl.engine ∈ [.checking, .ready, .draining, .aborting] →
        exec .quiesce s = .next { s with ctl := { s.ctl with error := .wrongState } })
      ∧ (s.ctl.engine ∈ [.checking, .ready, .aborting] →
        exec .abort s = .next { s with ctl := { s.ctl with error := .wrongState } })
      ∧ (s.ctl.engine ≠ .halted →
        exec (.badCommand v) s = .next { s with ctl := { s.ctl with error := .badCommand } })
      ∧ (s.ctl.engine = .halted →
        exec (.start stores first bus) s = .next (s.withStores stores) ∧ exec .quiesce s = .next s
          ∧ exec .abort s = .next s ∧ exec (.badCommand v) s = .next s)

/-- START in READY is refused for an unaligned SETUP_ADDR or for a block with a field outside its valid values (R159, its
layout R171): the error code becomes BAD_SETUP and nothing else changes. Any other block gives the parameters its bytes
hold. -/
def Obligations.StartRefusesBadSetup : Prop :=
  ∀ (stores : HostStores) (first : OrderRing) (bus : StartBus) (s : State), s.inReset = false →
    s.ctl.engine = .ready → bus ≠ .setupBlock →
    let rd := (s.withStores stores).readAt s.ctl.setupAddr
    let invalid := (∃ k ∈ [0, 4, 8, 12, 16, 20], (wordAt rd k).toNat % 64 ≠ 0)
      ∨ (∃ k ∈ [24, 26, 28], (halfAt rd k).toNat ∉ [4, 8, 16, 32, 64, 128, 256])
      ∨ (rd 31).toNat = 0 ∨ 64 < (rd 31).toNat ∨ (14 < (rd 32).toNat ∧ (rd 32).toNat ≠ 255)
      ∨ (rd 33).toNat < 16 ∨ 96 < (rd 33).toNat
    (s.ctl.setupAddr.toNat % 64 ≠ 0 ∨ invalid →
        exec (.start stores first bus) s
          = .next { s.withStores stores with ctl := { s.ctl with error := .badSetup } })
      ∧ (¬ invalid → setupOf rd = some
          { urgentBase := wordAt rd 0, routineBase := wordAt rd 4, reportBase := wordAt rd 8
            urgentHeader := wordAt rd 12, routineHeader := wordAt rd 16, reportHeader := wordAt rd 20
            urgentSize := (halfAt rd 24).toNat, routineSize := (halfAt rd 26).toNat
            reportSize := (halfAt rd 28).toNat, holdTime := (rd 30).toNat, batch := (rd 31).toNat
            defaultClass := if h : (rd 32).toNat < 15 then some ⟨(rd 32).toNat, h⟩ else none
            qualify := (rd 33).toNat })

/-- An accepted START (R160, R25, R145, R155): the setup parameters copied, the report ring adopted, both fault flags set
afresh, STARTED queued ahead of each RING_FAULT, both order rings adopted, RUNNING; contexts, lists, retained tables and
shared memory are as they were. -/
def Obligations.StartAdoptsTheRings : Prop :=
  ∀ (stores : HostStores) (first : OrderRing) (s : State) (p : Setup), s.inReset = false → s.ctl.engine = .ready →
    s.ctl.setupAddr.toNat % 64 = 0 → setupOf ((s.withStores stores).readAt s.ctl.setupAddr) = some p →
    let m := s.withStores stores
    let producer := fun r => m.readProducer (p.header r)
    let consumer := fun r => m.readConsumer (p.header r)
    let malformed := fun r => decide (p.size r < (producer r - consumer r).toNat)
    let kinds := startReports (.started s.ctl.cause s.ctl.status s.retained.calendar.valid) first malformed
    let room := 8 - s.report.outbox.countP OutboxEntry.isUnsolicited
    let raised := !s.report.sigPending && decide (p.batch ≤ s.report.unsignalled)
    (m.readProducer p.reportHeader - m.readConsumer p.reportHeader).toNat ≤ p.reportSize →
    ∃ t : State, exec (.start stores first .ok) s = .next t
      ∧ t.ctl = { s.ctl with
          engine := .running, error := .none, setup := p
          urgentFault := malformed .urgent, routineFault := malformed .routine }
      ∧ t.intake.streak = 0
      ∧ (∀ r : OrderRing, t.ring r =
          { base := p.base r, size := p.size r, header := p.header r, cachedProducer := producer r
            consumer := consumer r
            state := if malformed r then .faulted else if producer r = consumer r then .empty else .active })
      ∧ t.report = { s.report with
          adopted := true, base := p.reportBase, size := p.reportSize, header := p.reportHeader
          producer := m.readProducer p.reportHeader, cachedConsumer := m.readConsumer p.reportHeader
          holdTime := p.holdTime, batch := p.batch
          sigPending := s.report.sigPending || raised
          unsignalled := if raised then 0 else s.report.unsignalled
          holdTimer := if raised then .stopped else s.report.holdTimer
          outbox := s.report.outbox ++ (kinds.take room).map fun k =>
            { body := .unsolicited
                { kind := k
                  stamp := { day := s.retained.calendar.day, second := s.retained.calendar.second } }
              urgent := true }
          missed := if kinds.length ≤ room then s.report.missed
            else min (s.report.missed + (kinds.length - room)) 255 }
      ∧ (∀ l : LineId,
          t.line l = { s.line l with stored := { (s.line l).stored with qualify := p.qualify } })
      ∧ t = { m with ctl := t.ctl, intake := t.intake, report := t.report, lines := t.lines }

/-- An order bit of POST (R26, R27): without effect outside RUNNING and on a FAULTED ring; else the producer index read is
kept, an EMPTY ring with records becomes ACTIVE, and an index too far ahead faults the ring. -/
def Obligations.OrderPostReadsProducer : Prop :=
  ∀ (stores : HostStores) (r : OrderRing) (s : State), s.inReset = false →
    let m := s.withStores stores
    let x := s.ring r
    let read := m.readProducer x.header
    (s.ctl.engine ≠ .running ∨ x.state = .faulted → exec (.orderRingPost stores r false) s = .next m)
      ∧ (s.ctl.engine = .running → x.state ≠ .faulted → (read - x.consumer).toNat ≤ x.size →
        exec (.orderRingPost stores r false) s
          = .next (m.setRing r
              { x with
                cachedProducer := read
                state := if x.state = .empty ∧ read ≠ x.consumer then .active else x.state }))
      ∧ (s.ctl.engine = .running → x.state ≠ .faulted → x.size < (read - x.consumer).toNat →
        exec (.orderRingPost stores r false) s
          = .next { m.setRing r { x with state := .faulted } with
              ctl := { s.ctl with
                urgentFault := s.ctl.urgentFault || decide (r = .urgent)
                routineFault := s.ctl.routineFault || decide (r = .routine) }
              report := s.afterUnsolicited (.ringFault r) })

/-- The REPORT bit of POST (R149): without effect in CHECKING, in HALTED and before the ring is adopted; a consumer index
between the cached one and the producer index is kept, any other halts the part with BAD_REPORT_INDEX. -/
def Obligations.ReportBitTakesConsumer : Prop :=
  ∀ (stores : HostStores) (s : State), s.inReset = false →
    let m := s.withStores stores
    let read := m.readConsumer s.report.header
    let acts := s.ctl.engine ∈ [.ready, .running, .draining, .aborting] ∧ s.report.adopted = true
    let accepted := (s.report.producer - read).toNat ≤ (s.report.producer - s.report.cachedConsumer).toNat
    (¬ acts → exec (.reportPostBit stores false) s = .next m)
      ∧ (acts → accepted →
        exec (.reportPostBit stores false) s = .next { m with report := { s.report with cachedConsumer := read } })
      ∧ (acts → ¬ accepted →
        ∃ t : State, exec (.reportPostBit stores false) s = .next t ∧ m.EntersHalted t .badReportIndex)

/-- SIGNAL read and written (R154): a read returns the pending flag; the acknowledge clears it, and raises SIG again when
posts counted since the raise call for it, which nothing does in HALTED (R155). -/
def Obligations.AcknowledgeJudgesThePosts : Prop :=
  ∀ s : State, s.inReset = false →
    let due := 0 < s.report.unsignalled
      ∧ (s.report.holdTimer = .expired ∨ s.report.batch ≤ s.report.unsignalled)
    s.readRegister 12 = (if s.report.sigPending then 1 else 0)
      ∧ (s.report.sigPending = false → exec .signalAcknowledge s = .next s)
      ∧ (s.report.sigPending = true → due → s.ctl.engine ≠ .halted →
        exec .signalAcknowledge s
          = .next { s with report := { s.report with
              sigPending := true, unsignalled := 0, holdTimer := .stopped } })
      ∧ (s.report.sigPending = true → ¬ due ∨ s.ctl.engine = .halted →
        exec .signalAcknowledge s = .next { s with report := { s.report with sigPending := false } })

/-- QUIESCE in RUNNING (R21, R161): each PENDING and RETRY_WAIT context ends with WITHDRAWN in ascending number, the others
stay; DRAINING, or READY at once when the drain condition holds. -/
def Obligations.QuiesceEndsWaitingCalls : Prop :=
  ∀ s : State, s.inReset = false → s.ctl.engine = .running → s.ListsExact →
    ∃ t : State, exec .quiesce s = .next t
      ∧ (∀ c : CtxId, t.ctx c =
          if (s.ctx c).state.isWaiting then (s.ctx c).ended (s.ctx c).lastOutcome .withdrawn else s.ctx c)
      ∧ t.report = s.report.append (s.endRefs CtxState.isWaiting)
      ∧ t.waiting = { urgent := [], routine := [] } ∧ t.schedule = []
      ∧ (∀ a : AccountId, t.account a = (s.account a).afterEnds (s.booked CtxState.isWaiting a))
      ∧ t = { s with
          ctl := t.ctl, ctxs := t.ctxs, waiting := t.waiting, schedule := t.schedule, report := t.report
          retained := { s.retained with accounts := t.retained.accounts, accountCheck := t.retained.accountCheck }
          power := { s.power with roseSinceReady := t.power.roseSinceReady } }
      ∧ (let drained := t.report.outbox = [] ∧ (∀ c : CtxId, (t.ctx c).state ≠ .onLine)
          ∧ ∀ l : LineId, (t.line l).state ∉ [.seize, .dialing, .awaitAnswer, .connected]
        (drained → t.ctl = { s.ctl with engine := .ready, error := .none })
          ∧ (¬ drained → t.ctl = { s.ctl with engine := .draining, error := .none }))

/-- ABORT in RUNNING or DRAINING (R21, R74, R162): each active context ends with ABORTED in ascending number, each off-hook
line clears; ABORTING, or READY at once when the outbox is empty. -/
def Obligations.AbortEndsActiveCalls : Prop :=
  ∀ s : State, s.inReset = false → s.ctl.engine = .running ∨ s.ctl.engine = .draining → s.ListsExact →
    s.LinesExact →
    ∃ t : State, exec .abort s = .next t
      ∧ (∀ c : CtxId, t.ctx c =
          if (s.ctx c).state.isActive then
            (s.ctx c).ended (if (s.ctx c).state = .onLine then some .aborted else (s.ctx c).lastOutcome) .aborted
          else s.ctx c)
      ∧ t.report = s.report.append (s.endRefs CtxState.isActive)
      ∧ t.waiting = { urgent := [], routine := [] } ∧ t.schedule = []
      ∧ (∀ l : LineId,
          ((s.line l).state.offHook = true → t.line l = (s.line l).cleared ∧ t.meter l = none)
            ∧ ((s.line l).state.offHook = false → t.line l = s.line l ∧ t.meter l = s.meter l))
      ∧ (∀ a : AccountId, t.account a = (s.account a).afterEnds (s.booked CtxState.isActive a))
      ∧ t = { s with
          ctl := t.ctl, ctxs := t.ctxs, waiting := t.waiting, schedule := t.schedule, report := t.report
          lines := t.lines, meters := t.meters
          retained := { s.retained with accounts := t.retained.accounts, accountCheck := t.retained.accountCheck }
          power := { s.power with roseSinceReady := t.power.roseSinceReady } }
      ∧ (t.report.outbox = [] → t.ctl = { s.ctl with engine := .ready, error := .none })
      ∧ (t.report.outbox ≠ [] → t.ctl = { s.ctl with engine := .aborting, error := .none })

/-- The two judgements behind a happening (R161, R162): DRAINING gives way to READY when no context is active, the outbox is
empty and no line is in an outbound state; ABORTING when the outbox is empty. -/
def Obligations.WindingDownEndsInReady : Prop :=
  ∀ s : State,
    let ready := { s with
      ctl := { s.ctl with engine := .ready }, power := { s.power with roseSinceReady := false } }
    let drained := s.report.outbox = [] ∧ (∀ c : CtxId, (s.ctx c).state.isActive = false)
      ∧ ∀ l : LineId, (s.line l).state ∉ [.seize, .dialing, .awaitAnswer, .connected]
    (s.ctl.engine = .draining → drained → s.judgeDrain = ready)
      ∧ (s.ctl.engine ≠ .draining ∨ ¬ drained → s.judgeDrain = s)
      ∧ (s.ctl.engine = .aborting → s.report.outbox = [] → s.judgeAbort = ready)
      ∧ (s.ctl.engine ≠ .aborting ∨ s.report.outbox ≠ [] → s.judgeAbort = s)

/-- The three resets (R163, R164): every block at its reset values, the retained domain untouched, the cause POWER when main
power has risen since READY, and their ends, when none is in force: every line begins to qualify its inputs (R59, R92). A
power-on reset also cuts the access in progress (log 19), and a fall of VDD without a battery loses the retained content
(log 14). Raw inputs stay as they stand (log 4); a fall of VDD leaves the cause (log 23). -/
def Obligations.ResetsActAndEnd : Prop :=
  ∀ s : State,
    (s.inReset = false → ∃ t : State, exec .reset s = .next t
        ∧ s.BlocksReset t (if s.power.roseSinceReady then .power else .soft) ∧ t.power = s.power
        ∧ ∀ l : LineId, t.line l = (Line.atReset (s.line l).senseA (s.line l).senseB (s.line l).toneRaw
            (s.line l).ringRaw).timingInputs)
      ∧ (s.inReset = true → exec .reset s = .next s)
      ∧ (∃ t : State, exec .resetnAssert s = .next t
        ∧ s.BlocksReset t (if s.power.roseSinceReady then .power else .pin)
        ∧ t.power = { s.power with resetnLow := true }
        ∧ ∀ l : LineId, t.line l = Line.atReset (s.line l).senseA (s.line l).senseB (s.line l).toneRaw
            (s.line l).ringRaw)
      ∧ (∀ vdd : VddCrossing, ∃ t : State, exec (.powerOnReset vdd) s = .next t
        ∧ (s.afterCut vdd).BlocksReset t (if vdd.above then .power else s.ctl.cause)
        ∧ t.power = { s.power with
            powerReset := true, vddAbove := vdd.above, stableLeft := if vdd.above then some 20 else none
            roseSinceReady := s.power.roseSinceReady || vdd.above }
        ∧ ∀ l : LineId, t.line l = Line.atReset (s.line l).senseA (s.line l).senseB (s.line l).toneRaw
            (s.line l).ringRaw)
      ∧ (s.power.powerReset = true → s.power.vddAbove = true → ∃ t : State, exec .powerOnResetEnd s = .next t
        ∧ t = { s with power := { s.power with powerReset := false, stableLeft := none }, lines := t.lines }
        ∧ ∀ l : LineId, t.line l = if s.power.resetnLow then s.line l else (s.line l).timingInputs)
      ∧ (s.power.powerReset = false ∨ s.power.vddAbove = false → exec .powerOnResetEnd s = .next s)
      ∧ (s.power.resetnLow = true → ∃ t : State, exec .resetnRelease s = .next t
        ∧ t = { s with power := { s.power with resetnLow := false }, lines := t.lines }
        ∧ ∀ l : LineId, t.line l = if s.power.powerReset then s.line l else (s.line l).timingInputs)
      ∧ (s.power.resetnLow = false → exec .resetnRelease s = .next s)

/-- The check of the retained tables is finished (R164, R165, with the empty contents of R102, R127, R143): each table that
agrees with its check word is kept and VALID, each other is cleared and CLEARED, every active call count is 0 (R142), and the
engine is READY. -/
def Obligations.CheckJudgesEachTable : Prop :=
  ∀ s : State, s.ctl.engine = .checking → s.inReset = false →
    let r := s.retained
    let prefixOk := isSound (prefixTableWords r.prefixes) r.prefixCheck
    let bandOk := isSound (bandTableWords r.bands) r.bandCheck
    let accountOk := isSound (accountTableWords r.accounts) r.accountCheck
    let policyOk := isSound (policyTableWords r.policies) r.policyCheck
    let calendarOk := isSound (calendarWords r.calendar) r.calendarCheck
    ∃ t : State, exec .retainedCheckDone s = .next t
      ∧ t.ctl = { s.ctl with
          engine := .ready
          status := { prefixes := !prefixOk, bands := !bandOk, accounts := !accountOk, policies := !policyOk
                      calendar := !calendarOk } }
      ∧ (∀ i : Fin 64, t.retained.prefixes[i] = if prefixOk then r.prefixes[i] else none)
      ∧ (∀ (k : ClassId) (b : Fin 4), t.retained.bands[k][b] = if bandOk then r.bands[k][b] else none)
      ∧ (∀ a : AccountId,
          t.account a = { (if accountOk then s.account a else Account.cleared) with active := 0 })
      ∧ (∀ i : Fin 8, t.retained.policies[i] = if policyOk then r.policies[i] else none)
      ∧ t.retained.calendar
        = (if calendarOk then r.calendar else { day := 0, second := 0, ms := 0, valid := false })
      ∧ t.retained.Sound
      ∧ t = { s with
          ctl := t.ctl, retained := t.retained, power := { s.power with roseSinceReady := false } }

/-- VBAT lost (R163): while VDD is below its threshold the retained content is then a free value (log 14); while VDD is above
it, the content stays until VDD next falls. -/
def Obligations.BatteryLossFreesTheContent : Prop :=
  ∀ s : State,
    (s.power.vddAbove = true →
        ∃ t : State, exec .vbatLoss s = .next t ∧ t = { s with power := { s.power with vbatPresent := false } }
          ∧ ∀ cut : PowerCut, ∃ (v : State) (seed : Nat), exec (.powerOnReset { above := false, cut := cut }) t = .next v
            ∧ v.retained = Config.lostRetained seed)
      ∧ (s.power.vddAbove = false →
        exec .vbatLoss s
          = .next { s with
              power := { s.power with vbatPresent := false }, retained := Config.lostRetained s.seed
              seed := s.seed + 1 })

/-- The ways into HALTED by a failed access or a malformed report ring (R79, R142, R155, R166): a POST bit that acts, the
reads of START (setup block, report header, order header: R25, R145, R159) and its report ring found malformed (R145, R160),
the read of a record and the write of the consumer index of a take (R32), the write of a report record (R148), each with what
it leaves. The model's choices in it: the ring's state after a failed index write of a take and the adopted flag after a failed
START stay as they were (log 23), so do the indices and the state of a ring whose header cannot be read at START and the streak
counter (log 28), the bytes of the report record that stand in the slot are an operand (log 24). The write of the report index stands in PostFreesTheEntry, a malformed
consumer index in ReportBitTakesConsumer. -/
def Obligations.BusErrorHaltsThePart : Prop :=
  (∀ (stores : HostStores) (r : OrderRing) (s : State), s.inReset = false → s.ctl.engine = .running →
      (s.ring r).state ≠ .faulted →
      ∃ t : State, exec (.orderRingPost stores r true) s = .next t
        ∧ (s.withStores stores).EntersHalted t .memoryFault)
    ∧ (∀ (stores : HostStores) (s : State), s.inReset = false →
      s.ctl.engine ∈ [.ready, .running, .draining, .aborting] → s.report.adopted = true →
      ∃ t : State, exec (.reportPostBit stores true) s = .next t
        ∧ (s.withStores stores).EntersHalted t .memoryFault)
    ∧ (∀ (stores : HostStores) (first : OrderRing) (s : State), s.inReset = false → s.ctl.engine = .ready →
      s.ctl.setupAddr.toNat % 64 = 0 →
      let m := s.withStores stores
      (∃ t : State, exec (.start stores first .setupBlock) s = .next t ∧ m.EntersHalted t .memoryFault)
        ∧ ∀ p : Setup, setupOf (m.readAt s.ctl.setupAddr) = some p →
          let u := m.withSetup p
          let producer := fun r => m.readProducer (p.header r)
          let consumer := fun r => m.readConsumer (p.header r)
          let indices := { u.report with
            producer := m.readProducer p.reportHeader, cachedConsumer := m.readConsumer p.reportHeader }
          let tooFar := p.reportSize < (m.readProducer p.reportHeader - m.readConsumer p.reportHeader).toNat
          (∃ t : State, exec (.start stores first .reportHeader) s = .next t ∧ u.EntersHalted t .memoryFault)
            ∧ (tooFar → ∀ bus ∈ [StartBus.ok, .orderHeader .urgent, .orderHeader .routine],
              ∃ t : State, exec (.start stores first bus) s = .next t
                ∧ { u with report := indices }.EntersHalted t .badReportIndex)
            ∧ (¬ tooFar → ∀ r : OrderRing,
              let faulted := fun k => decide (k = first ∧ r ≠ first ∧ p.size k < (producer k - consumer k).toNat)
              let ring := fun k =>
                if k = r then { s.ring k with base := p.base k, size := p.size k, header := p.header k }
                else if k = first then
                  { base := p.base k, size := p.size k, header := p.header k, cachedProducer := producer k
                    consumer := consumer k
                    state := if faulted k then .faulted else if producer k = consumer k then .empty else .active }
                else s.ring k
              ∃ t : State, exec (.start stores first (.orderHeader r)) s = .next t
                ∧ { u with
                    ctl := { u.ctl with urgentFault := faulted .urgent, routineFault := faulted .routine }
                    intake := { urgent := ring .urgent, routine := ring .routine, streak := s.intake.streak }
                    report := { indices with adopted := true }.withUnsolicited
                      { day := s.retained.calendar.day, second := s.retained.calendar.second }
                      (startReports (.started s.ctl.cause s.ctl.status s.retained.calendar.valid) first
                        faulted) }.EntersHalted t .memoryFault))
    ∧ (∀ (i : Instr) (r : OrderRing) (cells : List (Nat × Byte)) (s : State),
      let m := { s with mem := Memory.writeCells (s.ring r).headAddr cells s.mem }
      (i.take = some (r, .readError, cells) → s.ctl.engine = .running → (s.ring r).hasRecord = true →
          ∃ t : State, exec i s = .next t ∧ m.EntersHalted t .memoryFault)
        ∧ (i.take = some (r, .writeError, cells) → i.wellFormed = true →
          s.ctl.engine = .running → s.Takeable r (needOfKind (overlay cells (fun _ => 0) 0)) →
          (s.Takeable (otherRing r) (m.headNeed (otherRing r)) →
            (r = .urgent ∧ s.intake.streak < 4) ∨ (r = .routine ∧ 4 ≤ s.intake.streak)) →
          ∃ t u : State, exec i s = .next t
            ∧ exec (decodeRequest r .ok (overlay cells fun _ => 0)) s = .next u
            ∧ { u.setRing r { s.ring r with consumer := (s.ring r).consumer + 1 } with mem := m.mem }.EntersHalted t
              .memoryFault))
    ∧ ∀ (e : OutboxEntry) (rest : List OutboxEntry) (landed : BitVec 64) (s : State), s.report.outbox = e :: rest →
      s.mayPost = true →
      let part := (cellsAt 0 (s.entryBytes e)).filter fun cell => landed.getLsbD cell.1
      let slot := slotAddr s.report.base s.report.size s.report.producer
      ∃ t : State, exec (.reportPost (.recordError landed)) s = .next t
        ∧ { s with mem := Memory.writeCells slot part s.mem }.EntersHalted t .memoryFault

/-! ## Takes of request records -/

/-- Every take of a record (R31, R32, R24): the record's ring moves one on and its header shows the new consumer index; the
other ring is considered, so that an ACTIVE one without a record becomes EMPTY and one whose head lacks its resource becomes
HELD; outside the record's slot and the index in the header every byte of shared memory reads as before. -/
def Obligations.TakeStepsTheRing : Prop :=
  ∀ (i : Instr) (r : OrderRing) (cells : List (Nat × Byte)) (s : State), i.wellFormed = true →
    i.take = some (r, .ok, cells) → s.ctl.engine = .running →
    s.Takeable r (needOfKind (overlay cells (fun _ => 0) 0)) → s.MemoryCanonical →
    let m := { s with mem := Memory.writeCells (s.ring r).headAddr cells s.mem }
    let need := m.headNeed (otherRing r)
    let both := s.Takeable (otherRing r) need
    (both → (r = .urgent ∧ s.intake.streak < 4) ∨ (r = .routine ∧ 4 ≤ s.intake.streak)) →
    ∃ t : State, exec i s = .next t
      ∧ t.ring r = (s.ring r).stepped
      ∧ t.ring (otherRing r) = (s.ring (otherRing r)).judged need (s.hasFree need)
      ∧ (r = .routine → t.intake.streak = 0)
      ∧ (r = .urgent → both → t.intake.streak = s.intake.streak + 1)
      ∧ (r = .urgent → ¬ both → t.intake.streak = s.intake.streak)
      ∧ t.readConsumer (s.ring r).header = (s.ring r).consumer + 1
      ∧ (∀ a : Nat, (∀ k < 64, a ≠ addrOf (s.ring r).headAddr k) → a ≠ addrOf (s.ring r).header 4 →
          a ≠ addrOf (s.ring r).header 5 → Memory.read t.mem a = Memory.read s.mem a)
      ∧ t.ctl = s.ctl ∧ t.power = s.power ∧ t.uptime = s.uptime ∧ t.uptimeMs = s.uptimeMs ∧ t.seed = s.seed
      ∧ t.pending = s.pending

/-- When a record is not taken (R26, R28, R29, R32): not outside RUNNING, not from a ring that is not ACTIVE; an ACTIVE ring
without a record becomes EMPTY, one whose head's resource is not free becomes HELD for it and keeps its consumer index, the
other ring being considered with it. That the record's bytes then stand in its slot is the model's choice (log 11), that a
take which intake would not make only considers the heads too (log 16). -/
def Obligations.RecordNotTaken : Prop :=
  ∀ (i : Instr) (r : OrderRing) (bus : TakeBus) (cells : List (Nat × Byte)) (s : State), i.wellFormed = true →
    i.take = some (r, bus, cells) →
    let x := s.ring r
    let need := needOfKind (overlay cells (fun _ => 0) 0)
    let m := { s with mem := Memory.writeCells x.headAddr cells s.mem }
    let other := m.headNeed (otherRing r)
    (s.ctl.engine ≠ .running → exec i s = .next s)
      ∧ (x.state ≠ .active → exec i s = .next s)
      ∧ (s.ctl.engine = .running → x.state = .active → x.consumer = x.cachedProducer →
        exec i s = .next (s.setRing r { x with state := .empty }))
      ∧ (s.ctl.engine = .running → x.hasRecord = true → bus ≠ .readError → s.hasFree need = false →
        exec i s = .next ((m.setRing r { x with state := .held need }).setRing (otherRing r)
          ((s.ring (otherRing r)).judged other (s.hasFree other))))

/-- The choice of R31 for a record whose resource is free. With the other ring ACTIVE but not takeable, the take is that with
this ring EMPTY or HELD instead. With both takeable, URGENT is chosen while the streak counter stands below 4, then ROUTINE:
the take is that with the other ring HELD, but that this ring keeps its state and the counter moves as the table gives; a take
from the ring not chosen is not made (log 16). -/
def Obligations.ArbiterChoosesARing : Prop :=
  ∀ (i : Instr) (r : OrderRing) (cells : List (Nat × Byte)) (s : State), i.wellFormed = true →
    i.take = some (r, .ok, cells) →
    let m := { s with mem := Memory.writeCells (s.ring r).headAddr cells s.mem }
    let y := s.ring (otherRing r)
    let need := m.headNeed (otherRing r)
    s.ctl.engine = .running → s.Takeable r (needOfKind (overlay cells (fun _ => 0) 0)) → y.state = .active →
    (y.consumer = y.cachedProducer → exec i s = exec i (s.setRing (otherRing r) { y with state := .empty }))
      ∧ (y.consumer ≠ y.cachedProducer → s.hasFree need = false →
        exec i s = exec i (s.setRing (otherRing r) { y with state := .held need }))
      ∧ (y.consumer ≠ y.cachedProducer → s.hasFree need = true →
        ((r = .urgent ∧ s.intake.streak < 4) ∨ (r = .routine ∧ 4 ≤ s.intake.streak) →
            ∃ t u : State, exec i s = .next t
              ∧ exec i (s.setRing (otherRing r) { y with state := .held need }) = .next u
              ∧ t = (u.setRing (otherRing r) y).setStreak (if r = .urgent then s.intake.streak + 1 else 0))
          ∧ ((r = .urgent ∧ 4 ≤ s.intake.streak) ∨ (r = .routine ∧ s.intake.streak < 4) → exec i s = .next m))

/-- The five valid ACCOUNT operations (R39, R138 to R141): the account's fields that the operation names change, with the
check word; the reply DONE, with a copy of the account for READ alone. -/
def Obligations.AccountOperationsActAtTheTake : Prop :=
  ∀ (r : OrderRing) (tag : Half) (a : AccountId) (limited : Bool) (limit : Word) (s : State),
    s.ReadyToTake r .doneSlot →
    let x := s.account a
    exec (.accountSetLimit r .ok tag a limited limit) s
        = .next ((((s.atTake r (setLimitCells tag a limited limit)).withAccount a
            { x with limited := limited, limit := limit.toNat }).replied tag 0x14 .done none false).afterTake r)
      ∧ exec (.accountClearTotal r .ok tag a) s
        = .next ((((s.atTake r (accountCells 2 tag a)).withAccount a { x with total := 0 }).replied tag 0x14 .done
            none false).afterTake r)
      ∧ exec (.accountSuspend r .ok tag a) s
        = .next ((((s.atTake r (accountCells 3 tag a)).withAccount a { x with suspended := true }).replied tag 0x14
            .done none false).afterTake r)
      ∧ exec (.accountResume r .ok tag a) s
        = .next ((((s.atTake r (accountCells 4 tag a)).withAccount a { x with suspended := false }).replied tag 0x14
            .done none false).afterTake r)
      ∧ exec (.accountRead r .ok tag a) s
        = .next (((s.atTake r (accountCells 5 tag a)).replied tag 0x14 .done (some (a, x)) false).afterTake r)

/-- LOAD_PREFIX, LOAD_BAND, SET_POLICY and SET_CLOCK with every field that counts in its range (R36 to R38, R40, R41): the
one entry, or the calendar, is replaced with its table's check word, and the reply is DONE. -/
def Obligations.TablesTakeValidEntries : Prop :=
  ∀ (r : OrderRing) (s : State), s.ReadyToTake r .doneSlot →
    (∀ (rec : LoadPrefixRec) (i : Fin 64) (symbols : List (Fin 12)) (cls : PrefixClass), rec.index.toNat = i.val →
        (rec.present = 0 → exec (.loadPrefix r .ok rec) s
            = .next ((({ s.atTake r rec.cells with
                retained := s.retained.setPrefixes (s.retained.prefixes.set i none) }).replied rec.tag 0x11 .done
                none false).afterTake r))
          ∧ (rec.present = 1 → 1 ≤ symbols.length → symbols.length ≤ 12 → rec.length.toNat = symbols.length →
            rec.symbols.toList.take symbols.length = symbolBytes symbols → rec.cls = cls.byte →
            exec (.loadPrefix r .ok rec) s
              = .next ((({ s.atTake r rec.cells with
                  retained := s.retained.setPrefixes
                    (s.retained.prefixes.set i (some { symbols := symbols, cls := cls })) }).replied rec.tag 0x11
                  .done none false).afterTake r)))
      ∧ (∀ (rec : LoadBandRec) (c : ClassId) (b : Fin 4) (days : DaySet), rec.cls.toNat = c.val →
        rec.band.toNat = b.val →
        (rec.present = 0 → exec (.loadBand r .ok rec) s
            = .next ((({ s.atTake r rec.cells with
                retained := s.retained.setBands (s.retained.bands.set c (s.retained.bands[c].set b none)) }).replied
                rec.tag 0x12 .done none false).afterTake r))
          ∧ (rec.present = 1 → rec.daySet = days.byte → rec.start.toNat ≤ 86399 → 1 ≤ rec.period.toNat →
            rec.period.toNat ≤ 3600 →
            exec (.loadBand r .ok rec) s
              = .next ((({ s.atTake r rec.cells with
                  retained := s.retained.setBands (s.retained.bands.set c (s.retained.bands[c].set b (some
                    { daySet := days, start := rec.start.toNat, period := rec.period.toNat
                      unitCharge := rec.unitCharge.toNat, setupCharge := rec.setupCharge.toNat }))) }).replied
                  rec.tag 0x12 .done none false).afterTake r)))
      ∧ (∀ (rec : SetPolicyRec) (i : Fin 8), rec.index.toNat = i.val →
        (rec.present = 0 → exec (.setPolicy r .ok rec) s
            = .next ((({ s.atTake r rec.cells with
                retained := s.retained.setPolicies (s.retained.policies.set i none) }).replied rec.tag 0x13 .done
                none false).afterTake r))
          ∧ (rec.present = 1 → ¬ rec.OutOfRange →
            exec (.setPolicy r .ok rec) s
              = .next ((({ s.atTake r rec.cells with
                  retained := s.retained.setPolicies (s.retained.policies.set i (some
                    { limit := rec.limit.toNat
                      intervals := (rec.intervals.toList.take rec.count.toNat).map BitVec.toNat
                      outcomes := rec.outcomes.extractLsb' 0 5 })) }).replied rec.tag 0x13 .done none
                  false).afterTake r)))
      ∧ ∀ rec : SetClockRec, rec.second.toNat ≤ 86399 →
        exec (.setClock r .ok rec) s
          = .next ((({ s.atTake r rec.cells with
              retained := s.retained.setCalendar
                { day := rec.day, second := rec.second.toNat, ms := 0, valid := true } }).replied rec.tag 0x15 .done
              none false).afterTake r)

/-- Requests with a field outside its range and records of unknown kind (R30, R33, R34, R36 to R40): the reply BAD_REQUEST in
a done slot, and no other change but the take. -/
def Obligations.BadRequestsChangeNothing : Prop :=
  ∀ (r : OrderRing) (s : State), s.ReadyToTake r .doneSlot →
    (∀ rec : AccountRec,
        (32 ≤ rec.account.toNat ∨ rec.op.toNat = 0 ∨ 5 < rec.op.toNat
          ∨ (rec.op = 1 ∧ 1 < rec.limitedFlag.toNat)) →
        exec (.accountInvalidOperation r .ok rec) s
          = .next (((s.atTake r rec.cells).replied rec.tag 0x14 .badRequest none false).afterTake r))
      ∧ (∀ (kind : Byte) (tag : Half), kind ∉ knownKinds →
        exec (.unknownRequestKind r .ok kind tag) s
          = .next (((s.atTake r (headCells kind tag)).replied tag kind .badRequest none false).afterTake r))
      ∧ (∀ rec : SetLineRec, ¬ rec.InRange →
        exec (.setLine r .ok rec) s
          = .next (((s.atTake r rec.cells).replied rec.tag 0x10 .badRequest none false).afterTake r))
      ∧ (∀ rec : LoadPrefixRec, rec.OutOfRange →
        exec (.loadPrefix r .ok rec) s
          = .next (((s.atTake r rec.cells).replied rec.tag 0x11 .badRequest none false).afterTake r))
      ∧ (∀ rec : LoadBandRec, rec.OutOfRange →
        exec (.loadBand r .ok rec) s
          = .next (((s.atTake r rec.cells).replied rec.tag 0x12 .badRequest none false).afterTake r))
      ∧ (∀ rec : SetPolicyRec, rec.OutOfRange →
        exec (.setPolicy r .ok rec) s
          = .next (((s.atTake r rec.cells).replied rec.tag 0x13 .badRequest none false).afterTake r))
      ∧ ∀ rec : SetClockRec, 86399 < rec.second.toNat →
        exec (.setClock r .ok rec) s
          = .next (((s.atTake r rec.cells).replied rec.tag 0x15 .badRequest none false).afterTake r)

/-- SET_LINE with every field in its range (R34, R35, R47): the stored parameters replaced, the enable field acted on by the
line's state, the reply ahead of the sweep (R52) and the pairing pass (R48) that the change of line calls for; what these two do
stands in PassLeavesNoPair. -/
def Obligations.SetLineActsByLineState : Prop :=
  ∀ (r : OrderRing) (rec : SetLineRec) (l : LineId) (s : State), s.ReadyToTake r .doneSlot → rec.InRange →
    rec.line.toNat = l.val →
    let u := s.atTake r rec.cells
    let ln := { s.line l with stored := rec.params }
    let reply := fun t : State => t.replied rec.tag 0x10 .done none false
    (((s.line l).state = .idle ∧ rec.enable = 1) ∨ ((s.line l).state ∈ [.disabled, .fault] ∧ rec.enable = 0) →
        exec (.setLine r .ok rec) s = .next ((reply (u.withLine l ln)).afterTake r))
      ∧ ((s.line l).state = .idle → rec.enable = 0 →
        exec (.setLine r .ok rec) s
          = .next ((reply { u.withLine l { ln with state := .disabled } with
              freeLines := s.freeLines.filter fun k => decide (k ≠ l) }).sweep.pass.afterTake r))
      ∧ ((s.line l).state ∈ [.disabled, .fault] → rec.enable = 1 →
        exec (.setLine r .ok rec) s
          = .next ((reply { u.withLine l { ln with state := .idle } with
              freeLines := s.freeLines ++ [l] }).pass.afterTake r))
      ∧ ((s.line l).state ∉ [.idle, .disabled, .fault] →
        exec (.setLine r .ok rec) s
          = .next ((reply (u.withLine l { ln with disablePending := decide (rec.enable = 0) })).afterTake r))

/-- CANCEL (R18, R11, R45, R74): its REQUEST_DONE, then the end of its target with CANCELLED from wherever it is, the line
cleared where it is on one, and a pairing pass behind a leave of the waiting list; TOO_LATE and NO_SUCH_TAG change nothing
else. -/
def Obligations.CancelEndsItsTarget : Prop :=
  ∀ (r : OrderRing) (rec : TargetRec) (s : State), s.ReadyToTake r .doneSlot →
    let u := fun status => (s.atTake r (rec.cells 0x03)).replied rec.tag 0x03 status none (rec.flags.getLsbD 0)
    (∀ c : CtxId, s.CarriesAlone c rec.target →
        ((s.ctx c).state = .pending → ∃ t : State, exec (.cancel r .ok rec) s = .next (t.pass.afterTake r)
            ∧ (u .done).EndsContext t c (s.ctx c).lastOutcome .cancelled ∧ (u .done).SameLines t
            ∧ t.waiting = s.waiting.remove c ∧ t.schedule = s.schedule)
          ∧ ((s.ctx c).state = .retryWait → ∃ t : State, exec (.cancel r .ok rec) s = .next (t.afterTake r)
            ∧ (u .done).EndsContext t c (s.ctx c).lastOutcome .cancelled ∧ (u .done).SameLines t
            ∧ t.waiting = s.waiting ∧ t.schedule = s.schedule.filter fun d => decide (d ≠ c))
          ∧ ∀ l : LineId, (s.ctx c).state = .onLine → (s.ctx c).currentLine = some l →
            (s.line l).state.offHook = true →
            ∃ t : State, exec (.cancel r .ok rec) s = .next (t.afterTake r)
              ∧ (u .done).EndsOnLine t l c .cancelled .cancelled)
      ∧ (s.TagUnused rec.target → ∃ status : DoneStatus, s.MissedStatus rec.target status
        ∧ exec (.cancel r .ok rec) s = .next ((u status).afterTake r))

/-- RELEASE (R19, R11, R74): a connected call ends with COMPLETED_NEAR behind the REQUEST_DONE and its line clears;
NOT_CONNECTED, TOO_LATE and NO_SUCH_TAG change nothing else. -/
def Obligations.ReleaseEndsAConnectedCall : Prop :=
  ∀ (r : OrderRing) (rec : TargetRec) (s : State), s.ReadyToTake r .doneSlot →
    let u := fun status => (s.atTake r (rec.cells 0x04)).replied rec.tag 0x04 status none (rec.flags.getLsbD 0)
    (∀ (c : CtxId) (l : LineId), s.CarriesAlone c rec.target → (s.ctx c).state = .onLine →
        (s.ctx c).currentLine = some l → (s.line l).state ∈ [.connected, .connectedIn] →
        ∃ t : State, exec (.release r .ok rec) s = .next (t.afterTake r)
          ∧ (u .done).EndsOnLine t l c .completedNear .completedNear)
      ∧ (∀ c : CtxId, s.CarriesAlone c rec.target →
        ((s.ctx c).state ≠ .onLine
          ∨ ∃ l : LineId, (s.ctx c).currentLine = some l ∧ (s.line l).state ∉ [.connected, .connectedIn]) →
        exec (.release r .ok rec) s = .next ((u .notConnected).afterTake r))
      ∧ (s.TagUnused rec.target → ∃ status : DoneStatus, s.MissedStatus rec.target status
        ∧ exec (.release r .ok rec) s = .next ((u status).afterTake r))

/-- The six checks of a PLACE_CALL in their order (R14, R15, R117): what the first failing check gives, the snapshot taken
when check 2 passes, the class kept when check 4 passes with one. -/
def Obligations.PlaceCallChecksInOrder : Prop :=
  ∀ (s : State) (rec : PlaceCallRec),
    let single : Policy := { limit := 1, intervals := [], outcomes := 0 }
    let mask : BitVec 8 := if rec.mask = 0 then 0xFF else rec.mask
    (¬ rec.FieldsInRange ∨ (∀ p, ¬ s.NamesPolicy rec p) →
        s.judgePlaceCall rec = { snapshot := single, tariff := none, failure := some .badRequest })
      ∧ ∀ p : Policy, rec.FieldsInRange → s.NamesPolicy rec p →
        (¬ s.TagUnused rec.tag →
            s.judgePlaceCall rec = { snapshot := p, tariff := none, failure := some .duplicateTag })
          ∧ (s.TagUnused rec.tag → (∃ i e, s.Decides i e rec.number ∧ e.cls = .barred) →
            s.judgePlaceCall rec = { snapshot := p, tariff := none, failure := some .barred })
          ∧ (s.TagUnused rec.tag → s.ResolvesTo rec.number none →
            s.judgePlaceCall rec = { snapshot := p, tariff := none, failure := some .noTariff })
          ∧ ∀ cls : ClassId, s.TagUnused rec.tag → s.ResolvesTo rec.number (some cls) →
            (¬ s.ClassHasBand cls →
                s.judgePlaceCall rec = { snapshot := p, tariff := some cls, failure := some .noTariff })
              ∧ (s.ClassHasBand cls → ¬ s.MaskHasUsable mask →
                s.judgePlaceCall rec = { snapshot := p, tariff := some cls, failure := some .noLine })
              ∧ (s.ClassHasBand cls → s.MaskHasUsable mask →
                s.judgePlaceCall rec = { snapshot := p, tariff := some cls, failure := none })

/-- PLACE_CALL (R1, R7, R11, R14, R44): the lowest-numbered FREE context takes the request; a failed check ends it at once, a
context that passes every check is PENDING at the tail of its origin class, and the pairing pass follows (R48). Which digits
and answer timeout a context keeps that ends with BAD_REQUEST is the model's choice (log 17). -/
def Obligations.PlaceCallIsDecidedAtTheTake : Prop :=
  ∀ (r : OrderRing) (rec : PlaceCallRec) (c : CtxId) (s : State), s.ReadyToTake r .context → s.LowestFree c →
    let u := s.atTake r rec.cells
    let v := s.judgePlaceCall rec
    let x := rec.context r v.snapshot v.tariff
    (∀ o : CallOutcome, v.failure = some o →
        exec (.placeCall r .ok rec) s
          = .next (({ u.withCtx c (x.ended none o) with
              report := s.report.append [{ body := .callEnd c, urgent := x.signalNow }] }).afterTake r))
      ∧ (v.failure = none →
        exec (.placeCall r .ok rec) s
          = .next (({ u.withCtx c { x with state := .pending } with
              waiting := match r with
                | .urgent => { s.waiting with urgent := s.waiting.urgent ++ [c] }
                | .routine => { s.waiting with routine := s.waiting.routine ++ [c] } }).pass.afterTake r))

/-- ACCEPT (R1, R7, R16, R97 to R99): BAD_REQUEST, DUPLICATE_TAG and NOT_RINGING end the context at once; otherwise the line
answers for it, CONNECTED_IN at once on a NORMAL loop, faulted on an INVALID one, else ANSWERING with the loop timer at
2 s. -/
def Obligations.AcceptAnswersARingingLine : Prop :=
  ∀ (r : OrderRing) (rec : AcceptRec) (c : CtxId) (s : State), s.ReadyToTake r .context → s.LowestFree c →
    let u := s.atTake r rec.cells
    let x := rec.context r
    let refused := fun o : CallOutcome => ({ u.withCtx c (x.ended none o) with
      report := s.report.append [{ body := .callEnd c, urgent := x.signalNow }] }).afterTake r
    (8 ≤ rec.line.toNat → exec (.accept r .ok rec) s = .next (refused .badRequest))
      ∧ (rec.line.toNat < 8 → ¬ s.TagUnused rec.tag → exec (.accept r .ok rec) s = .next (refused .duplicateTag))
      ∧ ∀ l : LineId, rec.line.toNat = l.val → s.TagUnused rec.tag →
        let ln := { s.line l with
          state := .answering, ringGap := none, announced := false, working := (s.line l).stored, held := some c
          loopTimer := some 2000 }
        let y := { x with state := .onLine, currentLine := some l, lastLine := some l }
        ((s.line l).state ≠ .ringing → exec (.accept r .ok rec) s = .next (refused .notRinging))
          ∧ ((s.line l).state = .ringing → (s.line l).loopPattern ∈ [.noLoop, .reversed] →
            exec (.accept r .ok rec) s = .next (((u.withCtx c y).withLine l ln).afterTake r))
          ∧ ((s.line l).state = .ringing → (s.line l).loopPattern = .invalid →
            exec (.accept r .ok rec) s = .next ((((u.withCtx c y).withLine l ln).faultAndSweep l).afterTake r))
          ∧ ((s.line l).state = .ringing → (s.line l).loopPattern = .normal →
            ∃ t : State, exec (.accept r .ok rec) s = .next (t.afterTake r)
              ∧ t.line l = { ln with
                  state := .connectedIn, loopTimer := none, farClearTimer := none, answerTimer := none
                  classifier := Classifier.disabled, reports := ln.reports.map fun q => { q with stale := true }
                  maxDurationTimer := if rec.maxDuration = 0 then none else some (rec.maxDuration.toNat * 1000) }
              ∧ u.OtherLines t l ∧ t.meter l = s.meter l
              ∧ t.ctx c = { y with
                  stamp := some { day := s.retained.calendar.day, second := s.retained.calendar.second }
                  drops := if x.progress && !s.progressRoom then 1 else 0 }
              ∧ u.OtherCtxs t c ∧ u.SameLists t ∧ t.retained = s.retained ∧ u.Keeps t
              ∧ t.report = if x.progress && s.progressRoom then
                  s.report.append [{ body := .progress { tag := rec.tag, kind := .answered, line := l, attempts := 0 }
                                     urgent := x.signalNow }]
                else s.report)

/-! ## Happenings at a line -/

/-- The raw inputs of a line (R59, R60, R92): the new level is kept; while the qualifiers run, an input that leaves its
qualified value is timed, by the qualify time in force or 200 ms, one that changes to another value is timed afresh, and one
that returns stops the timing. The block left to itself, its queue empty (log 1): a happening that is due is taken; with none
due one millisecond passes, in which the running timers run down, connected milliseconds count up (R70), and so do uptime
(R104), the calendar (R123) and the classifier's period (R83). That the calendar stands still in a millisecond without a supply
is the model's choice (log 27), and so is the unbounded count that a line's millisecond timer is (log 5). -/
def Obligations.RawInputsAreTimed : Prop :=
  (patternOf false false = .noLoop ∧ patternOf true false = .normal ∧ patternOf false true = .reversed
      ∧ patternOf true true = .invalid)
    ∧ (∀ (l : LineId) (a b : Bool) (s : State),
      let ln := s.line l
      let time := if ln.state.offHook = true ∨ ln.state = .clearing then ln.working.qualify else ln.stored.qualify
      (s.LinesRun →
          exec (.loopSenseChange l a b) s
              = .next (s.withLine l { ln with
                  senseA := a, senseB := b
                  loopQual := if patternOf a b = patternOf ln.senseA ln.senseB then ln.loopQual
                    else if patternOf a b = ln.loopPattern then none else some time })
            ∧ exec (.toneEnergyChange l a) s
              = .next (s.withLine l { ln with
                  toneRaw := a
                  toneQual := if a = ln.toneRaw then ln.toneQual else if a = ln.tonePresent then none else some time })
            ∧ exec (.ringDetectChange l a) s
              = .next (s.withLine l { ln with
                  ringRaw := a
                  ringQual := if a = ln.ringRaw then ln.ringQual
                    else if a = ln.ringLevel then none else some 200 }))
        ∧ (¬ s.LinesRun →
          exec (.loopSenseChange l a b) s = .next (s.withLine l { ln with senseA := a, senseB := b })
            ∧ exec (.toneEnergyChange l a) s = .next (s.withLine l { ln with toneRaw := a })
            ∧ exec (.ringDetectChange l a) s = .next (s.withLine l { ln with ringRaw := a })))
    ∧ (∀ s : State, s.pending = [] →
      let u := s.intakeLooks
      let down := fun (timer : Option Nat) => timer.map fun n => n - 1
      (∀ i ∈ u.dueNow, u.dueNow = [i] → step s = exec i u)
        ∧ (2 ≤ u.dueNow.length → ∃ i ∈ u.dueNow, step s = exec i { u with seed := s.seed + 1 })
        ∧ (u.dueNow = [] → s.LinesExact → ∃ t : State, step s = .next t
          ∧ (s.LinesRun →
            (∀ l : LineId, t.line l = { s.line l with
                loopQual := down (s.line l).loopQual, toneQual := down (s.line l).toneQual
                ringQual := down (s.line l).ringQual, loopTimer := down (s.line l).loopTimer
                dialToneTimer := down (s.line l).dialToneTimer, digitTimer := down (s.line l).digitTimer
                pauseTimer := down (s.line l).pauseTimer, answerTimer := down (s.line l).answerTimer
                maxDurationTimer := down (s.line l).maxDurationTimer, farClearTimer := down (s.line l).farClearTimer
                clearGuard := down (s.line l).clearGuard, ringGap := down (s.line l).ringGap
                classifier := { (s.line l).classifier with
                  elapsed := if (s.line l).classifier.enabled then min ((s.line l).classifier.elapsed + 1) 65535
                    else (s.line l).classifier.elapsed }
                msTimer := (s.line l).msTimer + 1 })
              ∧ ∀ c : CtxId,
                ((∃ l : LineId, (s.line l).held = some c ∧ (s.line l).state ∈ [.connected, .connectedIn]) →
                    t.ctx c = { s.ctx c with connectedMs := min ((s.ctx c).connectedMs + 1) 4294967295 })
                  ∧ ((∀ l : LineId, (s.line l).held = some c → (s.line l).state ∉ [.connected, .connectedIn]) →
                    t.ctx c = s.ctx c))
          ∧ (¬ s.LinesRun → (∀ l : LineId, t.line l = s.line l) ∧ ∀ c : CtxId, t.ctx c = s.ctx c)
          ∧ t = { u with
              lines := t.lines, ctxs := t.ctxs, uptimeMs := if s.inReset then 0 else s.uptimeMs + 1
              report := { s.report with
                holdTimer := match s.report.holdTimer with
                  | .running left => .running (left - 1)
                  | .stopped => .stopped
                  | .expired => .expired }
              power := { s.power with stableLeft := down s.power.stableLeft }
              retained := if s.power.vddAbove || s.power.vbatPresent then
                  { s.retained with calendar := { s.retained.calendar with ms := s.retained.calendar.ms + 1 } }
                else s.retained }))

/-- A loop pattern qualified (R59, R60, R61, R62, R68, R72, R77, R98, R99): what the line does with it by its state. The
answer in AWAIT_ANSWER is stated apart. -/
def Obligations.QualifiedPatternActsByLineState : Prop :=
  ∀ (l : LineId) (s : State), s.LinesRun →
    let p := patternOf (s.line l).senseA (s.line l).senseB
    let ln := { s.line l with loopPattern := p, loopQual := none }
    let u := s.withLine l ln
    ((s.line l).loopQual = none → exec (.loopPatternQualified l) s = .next s.judgeDrain)
      ∧ ((s.line l).loopQual ≠ none →
        (ln.state ∈ [.idle, .clearing, .ringing, .disabled, .fault]
            ∨ (p ≠ .invalid ∧ (ln.state = .dialing
              ∨ (ln.state = .seize ∧ (p ≠ .normal ∨ ln.dialToneWait = true))
              ∨ (ln.state = .awaitAnswer ∧ p ≠ .reversed) ∨ (ln.state = .answering ∧ p ≠ .normal))) →
          exec (.loopPatternQualified l) s = .next u.judgeDrain)
        ∧ (ln.state ∈ [.connected, .connectedIn] → p ≠ .invalid →
          exec (.loopPatternQualified l) s
            = .next (s.withLine l { ln with farClearTimer := if p = .reversed then none else some 400 }).judgeDrain)
        ∧ ∀ c : CtxId, u.Holds l c →
          (ln.state = .answering → p = .normal → ∃ t : State, exec (.loopPatternQualified l) s = .next t.judgeDrain
            ∧ t.line l = ln.connected .connectedIn (s.ctx c).maxDuration ∧ u.OtherLines t l ∧ t.meter l = s.meter l
            ∧ t.ctx c = { s.ctx c with
                stamp := some { day := s.retained.calendar.day, second := s.retained.calendar.second }
                drops := if (s.ctx c).progress && !s.progressRoom then min ((s.ctx c).drops + 1) 255
                  else (s.ctx c).drops }
            ∧ t.report = (if (s.ctx c).progress && s.progressRoom then
                s.report.append [s.progressEntry c l .answered (s.ctx c).attempts] else s.report)
            ∧ u.OtherCtxs t c ∧ u.SameLists t ∧ t.retained = s.retained ∧ u.Keeps t)
          ∧ (ln.state = .seize → ln.dialToneWait = false → p = .normal → ln.working.dialToneRequired = true →
            exec (.loopPatternQualified l) s
              = .next (s.withLine l { ln.listening with
                  loopTimer := none, dialToneWait := true
                  dialToneTimer := some (ln.working.seizeTimeout * 1000) }).judgeDrain)
          ∧ (∀ symbol : Symbol, ln.state = .seize → ln.dialToneWait = false → p = .normal →
            ln.working.dialToneRequired = false → (s.ctx c).symbols[0]? = some symbol →
            exec (.loopPatternQualified l) s
              = .next (s.withLine l
                  ({ ln with state := .dialing, dialToneWait := false, loopTimer := none }.sending 1 symbol)).judgeDrain)
          ∧ (p = .invalid → ∃ v : State,
            exec (.loopPatternQualified l) s
                = .next ({ v with report := v.afterUnsolicited (.lineFault l) }.sweep.pass).judgeDrain
              ∧ u.EndsContext v c (some .lineFault) .lineFault
              ∧ v.line l = { ln.cleared with state := .fault, clearGuard := ln.clearGuard, disablePending := false }
              ∧ v.meter l = none ∧ u.OtherLines v l ∧ v.waiting = s.waiting ∧ v.schedule = s.schedule))

/-- An outbound call answered by a qualified REVERSED pattern in AWAIT_ANSWER (R69, R131, R130, R133): CONNECTED, stamped,
ANSWERED queued when asked for, the account's active calls raised; the setup charge and the first unit applied, or the call
cut at the charge that is refused. -/
def Obligations.AnswerIsMetered : Prop :=
  ∀ (l : LineId) (c : CtxId) (a : AccountId) (s : State), s.LinesRun → s.Holds l c →
    (s.line l).state = .awaitAnswer → (s.line l).loopQual ≠ none →
    patternOf (s.line l).senseA (s.line l).senseB = .reversed → (s.ctx c).account = some a →
    let price := s.priceNow (s.ctx c).tariff
    let x := { s.ctx c with
      stamp := some { day := s.retained.calendar.day, second := s.retained.calendar.second }
      drops := if (s.ctx c).progress && !s.progressRoom then min ((s.ctx c).drops + 1) 255 else (s.ctx c).drops }
    let u := { s with
      ctxs := s.ctxs.set c x
      lines := s.lines.set l
        ({ s.line l with loopPattern := .reversed, loopQual := none }.connected .connected (s.ctx c).maxDuration)
      report := if (s.ctx c).progress && s.progressRoom then
          s.report.append [s.progressEntry c l .answered (s.ctx c).attempts]
        else s.report }
    let acct := { s.account a with active := (s.account a).active + 1 }
    let e : MeterEntry :=
      { ctx := c, account := a, tariff := (s.ctx c).tariff, unitNumber := 0, unitPeriod := price.period
        unitCharge := price.unitCharge, nextStart := (s.line l).msTimer, warned := false }
    let opened := { u with meters := s.meters.set l (some e) }
    ∃ t : State, exec (.loopPatternQualified l) s = .next t.judgeDrain
      ∧ (¬ acct.Pays price.setupCharge →
          (opened.withAccount a acct).EndsOnLine t l c .limitReached .limitReached)
      ∧ (acct.Pays price.setupCharge → ¬ (acct.charged price.setupCharge).Pays price.unitCharge →
          ((opened.withAccount a (acct.charged price.setupCharge)).withCtx c
              { x with charge := min (x.charge + price.setupCharge) 4294967295 }).EndsOnLine t l c .limitReached
            .limitReached)
      ∧ (acct.Pays price.setupCharge → (acct.charged price.setupCharge).Pays price.unitCharge →
          let paid := (acct.charged price.setupCharge).charged price.unitCharge
          t.account a = paid ∧ (∀ b : AccountId, b ≠ a → t.account b = s.account b)
            ∧ u.UnitRuns t l e (s.line l).msTimer price paid
              { x with charge := min (min (x.charge + price.setupCharge) 4294967295 + price.unitCharge) 4294967295 }
            ∧ t.line l = u.line l ∧ u.OtherLines t l ∧ u.OtherCtxs t c ∧ u.SameLists t ∧ u.Keeps t)

/-- A tone level qualified, and the two marks of a running period (R59, R83, R85 to R90): how the classifier's period, cycle
and class change, each change of class reported. A disabled classifier is not told. -/
def Obligations.ClassifierMeasuresTheTone : Prop :=
  ∀ (l : LineId) (s : State), s.LinesRun →
    let ln := s.line l
    let k := ln.classifier
    let kept := { ln with tonePresent := ln.toneRaw, toneQual := none }
    (ln.toneQual = none → exec (.toneEnergyQualified l) s = .next s.judgeDrain)
      ∧ (ln.toneQual ≠ none → k.enabled = false ∨ k.level = ln.toneRaw →
        exec (.toneEnergyQualified l) s = .next (s.withLine l kept).judgeDrain)
      ∧ (ln.toneQual ≠ none → k.enabled = true → k.level = true → ln.toneRaw = false →
        let cls := if k.cls = .dial then .unknown else k.cls
        exec (.toneEnergyQualified l) s
          = .next (s.withLine l { kept with
              classifier := { k with
                cls := cls, level := false, periodOn := false, elapsed := 0, whole := true
                cycleOn := if k.whole then some k.elapsed else none }
              reports := ln.reported cls }).judgeDrain)
      ∧ (ln.toneQual ≠ none → k.enabled = true → k.level = false → ln.toneRaw = true →
        (∀ on : Nat, k.whole = true → k.cycleOn = some on →
            let j := k.afterCycle on k.elapsed
            exec (.toneEnergyQualified l) s
              = .next (s.withLine l { kept with
                  classifier := { k with
                    cls := j.1, matchCount := j.2.1, matchKind := j.2.2, level := true, periodOn := true
                    elapsed := 0, whole := true, cycleOn := none }
                  reports := ln.reported j.1 }).judgeDrain)
          ∧ (k.whole = false ∨ k.cycleOn = none →
            exec (.toneEnergyQualified l) s
              = .next (s.withLine l { kept with
                  classifier := { k with
                    level := true, periodOn := true, elapsed := 0, whole := true, cycleOn := none } }).judgeDrain))
      ∧ (k.enabled = true → k.periodOn = true → k.cls ≠ .dial →
        exec (.dialToneMark l) s
          = .next (s.withLine l { ln with
              classifier := { k with cls := .dial, elapsed := max k.elapsed 1000 }
              reports := ln.reports ++ [{ cls := .dial, stale := false }] }).judgeDrain)
      ∧ (k.enabled = true → k.periodOn = false → k.whole = true → k.cycleOn ≠ none →
        exec (.offPeriodOverrun l) s
          = .next (s.withLine l { ln with
              classifier := { k with
                cls := .unknown, matchCount := 0, matchKind := none, cycleOn := none
                elapsed := max k.elapsed 5001 }
              reports := ln.reported .unknown }).judgeDrain)

/-- A qualified ring by the line's state and the engine's (R93 to R95, R100, R51, R13): RINGING with RING_IN in RUNNING, a new
burst, glare, or no effect but the ring level. That RING_IN stands ahead of what the pairing pass queues at glare is the
model's choice (log 13). -/
def Obligations.QualifiedRingActsByLineState : Prop :=
  ∀ (l : LineId) (s : State), s.LinesRun → (s.line l).ringQual ≠ none → (s.line l).ringRaw = true →
    (s.line l).ringLevel = false →
    let ln := { s.line l with ringLevel := true, ringQual := none }
    let u := s.withLine l ln
    let seized := { ln.deaf with
      state := .ringing, dialToneWait := false, loopTimer := none, dialToneTimer := none, held := none
      ringGap := none, announced := false }
    (ln.state ∈ [.idle, .clearing] → s.ctl.engine = .running →
        exec (.qualifiedRing l) s
          = .next { s.withLine l { ln with state := .ringing, clearGuard := none, ringGap := none, announced := true } with
              freeLines := s.freeLines.filter fun k => decide (k ≠ l)
              report := s.afterUnsolicited (.ringIn l) }.pass)
      ∧ (ln.state ∈ [.dialing, .awaitAnswer, .connected, .answering, .connectedIn, .disabled, .fault]
          ∨ (ln.state ∈ [.idle, .clearing] ∧ s.ctl.engine ≠ .running) →
        exec (.qualifiedRing l) s = .next u.judgeDrain)
      ∧ (ln.state = .ringing → exec (.qualifiedRing l) s = .next (s.withLine l { ln with ringGap := none }).judgeDrain)
      ∧ ∀ c : CtxId, u.Holds l c → ln.state = .seize →
        let back := { s.ctx c with
          currentLine := none, attempts := (s.ctx c).attempts - 1, lastLine := (s.ctx c).prevLine }
        (s.ctl.engine = .running →
            exec (.qualifiedRing l) s
              = .next { s.withLine l { seized with announced := true } with
                  ctxs := s.ctxs.set c { back with state := .pending }
                  waiting := match (s.ctx c).origin with
                    | .urgent => { s.waiting with urgent := c :: s.waiting.urgent }
                    | .routine => { s.waiting with routine := c :: s.waiting.routine }
                  report := s.afterUnsolicited (.ringIn l) }.pass)
          ∧ (s.ctl.engine = .draining → ∃ t : State, exec (.qualifiedRing l) s = .next t.judgeDrain
            ∧ ((s.withLine l seized).withCtx c back).EndsContext t c (s.ctx c).lastOutcome .withdrawn
            ∧ (s.withLine l seized).SameLines t ∧ t.waiting = s.waiting ∧ t.schedule = s.schedule)

/-- The ring level returns to QUIET and the ring gap starts (R92, R95); ring gap and clear guard run out (R76, R95, R47, R52):
the line becomes IDLE and joins the tail of the free line list, or DISABLED when disable-pending is set, with the sweep;
RING_GONE for an announced line; the pairing pass. That RING_GONE stands ahead of what that pass queues is the model's choice
(log 13). -/
def Obligations.LineReturnsToRest : Prop :=
  ∀ (l : LineId) (s : State), s.LinesRun →
    let ln := s.line l
    (ln.ringQual ≠ none → ln.ringRaw = false → ln.ringLevel = true →
        exec (.ringLevelQuiet l) s
          = .next (s.withLine l { ln with
              ringLevel := false, ringQual := none
              ringGap := if ln.state = .ringing then some 8000 else ln.ringGap }).judgeDrain)
      ∧ (ln.state = .clearing → ln.clearGuard ≠ none → ln.disablePending = false →
        exec (.clearGuardTimerExpiry l) s
          = .next ({ s.withLine l { ln with state := .idle, clearGuard := none } with
              freeLines := s.freeLines ++ [l] }.pass).judgeDrain)
      ∧ (ln.state = .clearing → ln.clearGuard ≠ none → ln.disablePending = true →
        exec (.clearGuardTimerExpiry l) s
          = .next ((s.withLine l
              { ln with state := .disabled, clearGuard := none, disablePending := false }).sweep.pass).judgeDrain)
      ∧ (ln.state = .ringing → ln.ringGap ≠ none → ln.disablePending = false →
        exec (.ringGapTimerExpiry l) s
          = .next ({ s.withLine l { ln with state := .idle, ringGap := none, announced := false } with
              freeLines := s.freeLines ++ [l]
              report := if ln.announced then s.afterUnsolicited (.ringGone l) else s.report }.pass).judgeDrain)
      ∧ (ln.state = .ringing → ln.ringGap ≠ none → ln.disablePending = true →
        let v := (s.withLine l { ln with state := .disabled, ringGap := none, disablePending := false }).sweep
        exec (.ringGapTimerExpiry l) s
          = .next ({ v.withLine l { v.line l with announced := false } with
              report := if ln.announced then v.afterUnsolicited (.ringGone l) else v.report }.pass).judgeDrain)
      ∧ ((ln.state ≠ .clearing ∨ ln.clearGuard = none) →
        exec (.clearGuardTimerExpiry l) s = .next s.judgeDrain)
      ∧ ((ln.state ≠ .ringing ∨ ln.ringGap = none) → exec (.ringGapTimerExpiry l) s = .next s.judgeDrain)

/-- The loop timer, the dial-tone timer and the answer timer run out (R61, R62, R66, R68, R73, R98, R105 to R108, R13): the
line clears, and the context waits for a retry or ends. A stopped timer does not run out (R75). -/
def Obligations.AttemptTimersEndTheAttempt : Prop :=
  ∀ (l : LineId) (s : State), s.LinesRun →
    (∀ c : CtxId, s.Holds l c →
        ((s.line l).loopTimer ≠ none →
            ∃ t : State, exec (.loopTimerExpiry l) s = .next t.judgeDrain ∧ s.AttemptFails t l c .noLoop)
          ∧ ((s.line l).dialToneTimer ≠ none →
            ∃ t : State, exec (.dialToneTimerExpiry l) s = .next t.judgeDrain ∧ s.AttemptFails t l c .noDialtone)
          ∧ ((s.line l).answerTimer ≠ none →
            ∃ t : State, exec (.answerTimerExpiry l) s = .next t.judgeDrain ∧ s.AttemptFails t l c .noAnswer))
      ∧ ((s.line l).loopTimer = none → exec (.loopTimerExpiry l) s = .next s.judgeDrain)
      ∧ ((s.line l).dialToneTimer = none → exec (.dialToneTimerExpiry l) s = .next s.judgeDrain)
      ∧ ((s.line l).answerTimer = none → exec (.answerTimerExpiry l) s = .next s.judgeDrain)

/-- The max-duration timer and the far-clear timer run out (R70 to R73): DURATION_LIMIT; COMPLETED_FAR on a NORMAL pattern,
LINE_LOST on NO_LOOP. A stopped timer does not run out (R75). -/
def Obligations.CallTimersEndTheCall : Prop :=
  ∀ (l : LineId) (s : State), s.LinesRun →
    (∀ c : CtxId, s.Holds l c →
        ((s.line l).maxDurationTimer ≠ none →
            ∃ t : State, exec (.maxDurationTimerExpiry l) s = .next t.judgeDrain
              ∧ s.EndsOnLine t l c .durationLimit .durationLimit)
          ∧ ((s.line l).farClearTimer ≠ none → (s.line l).loopPattern = .normal →
            ∃ t : State, exec (.farClearTimerExpiry l) s = .next t.judgeDrain
              ∧ s.EndsOnLine t l c .completedFar .completedFar)
          ∧ ((s.line l).farClearTimer ≠ none → (s.line l).loopPattern = .noLoop →
            ∃ t : State, exec (.farClearTimerExpiry l) s = .next t.judgeDrain
              ∧ s.EndsOnLine t l c .lineLost .lineLost))
      ∧ ((s.line l).maxDurationTimer = none → exec (.maxDurationTimerExpiry l) s = .next s.judgeDrain)
      ∧ ((s.line l).farClearTimer = none → exec (.farClearTimerExpiry l) s = .next s.judgeDrain)

/-- The digit timer and the pause timer run out (R63 to R67): the tone gives way to its gap; a finished symbol to the next one
of the context's digit string, the last one to AWAIT_ANSWER, or to the answer when the pattern already is REVERSED. -/
def Obligations.DiallingGoesSymbolBySymbol : Prop :=
  ∀ (l : LineId) (s : State), s.LinesRun →
    let ln := s.line l
    (ln.digitTimer ≠ none → ln.drive ≠ none →
        exec (.digitTimerExpiry l) s
          = .next (s.withLine l { ln with drive := none, digitTimer := some ln.working.gapTime }).judgeDrain)
      ∧ ∀ (c : CtxId) (pos : Nat), s.Holds l c → ln.state = .dialing → ln.digitPos = some pos →
        (∀ (i : Instr) (done : Line),
            (i = .digitTimerExpiry l ∧ ln.digitTimer ≠ none ∧ ln.drive = none ∧ done = { ln with digitTimer := none })
              ∨ (i = .pauseTimerExpiry l ∧ ln.pauseTimer ≠ none ∧ done = { ln with pauseTimer := none }) →
            (∀ symbol : Symbol, (s.ctx c).symbols[pos]? = some symbol →
                exec i s = .next (s.withLine l (done.sending (pos + 1) symbol)).judgeDrain)
              ∧ ((s.ctx c).symbols[pos]? = none →
                let v := s.withLine l (done.awaiting (s.ctx c).answerTimeout)
                (ln.loopPattern ≠ .reversed → exec i s = .next v.judgeDrain)
                  ∧ (ln.loopPattern = .reversed → exec i s = .next (v.answer l).judgeDrain)))

/-- A classifier report taken (R90, R62, R66, R68): a stale one is discarded; DIAL ends a dial-tone wait or a W symbol,
RINGBACK gives a RINGING report when asked for, BUSY and CONGESTION end the attempt; any other is not acted on. -/
def Obligations.ClassReportActsByLineState : Prop :=
  ∀ (l : LineId) (q : ClassReport) (rest : List ClassReport) (s : State), s.LinesRun →
    (s.line l).reports = q :: rest →
    let ln := { s.line l with reports := rest }
    let u := s.withLine l ln
    (q.stale = true
        ∨ (ln.state ≠ .awaitAnswer ∧ q.cls ≠ .dial)
        ∨ (ln.state = .awaitAnswer ∧ q.cls ∈ [.dial, .unknown])
        ∨ (ln.state = .seize ∧ ln.dialToneWait = false) ∨ (ln.state = .dialing ∧ ln.dialToneTimer = none)
        ∨ ln.state ∉ [.seize, .dialing, .awaitAnswer] →
        exec (.classReport l) s = .next u.judgeDrain)
      ∧ ∀ c : CtxId, u.Holds l c → q.stale = false →
        (∀ symbol : Symbol, q.cls = .dial → ln.state = .seize → ln.dialToneWait = true →
            (s.ctx c).symbols[0]? = some symbol →
            exec (.classReport l) s
              = .next (s.withLine l ({ ln.deaf with
                  state := .dialing, dialToneWait := false, dialToneTimer := none }.sending 1 symbol)).judgeDrain)
          ∧ (∀ pos : Nat, q.cls = .dial → ln.state = .dialing → ln.dialToneTimer ≠ none → ln.digitPos = some pos →
            let done := { ln.deaf with dialToneTimer := none }
            (∀ symbol : Symbol, (s.ctx c).symbols[pos]? = some symbol →
                exec (.classReport l) s = .next (s.withLine l (done.sending (pos + 1) symbol)).judgeDrain)
              ∧ ((s.ctx c).symbols[pos]? = none →
                let v := s.withLine l (done.awaiting (s.ctx c).answerTimeout)
                (ln.loopPattern ≠ .reversed → exec (.classReport l) s = .next v.judgeDrain)
                  ∧ (ln.loopPattern = .reversed → exec (.classReport l) s = .next (v.answer l).judgeDrain)))
          ∧ (q.cls = .ringback → ln.state = .awaitAnswer →
            ((s.ctx c).progress = true → s.progressRoom = true →
                exec (.classReport l) s
                  = .next ({ u with
                      report := s.report.append [s.progressEntry c l .ringing (s.ctx c).attempts] }).judgeDrain)
              ∧ ((s.ctx c).progress = true → s.progressRoom = false →
                exec (.classReport l) s
                  = .next (u.withCtx c { s.ctx c with drops := min ((s.ctx c).drops + 1) 255 }).judgeDrain)
              ∧ ((s.ctx c).progress = false → exec (.classReport l) s = .next u.judgeDrain))
          ∧ (q.cls = .busy → ln.state = .awaitAnswer →
            ∃ t : State, exec (.classReport l) s = .next t.judgeDrain ∧ u.AttemptFails t l c .busy)
          ∧ (q.cls = .congestion → ln.state = .awaitAnswer →
            ∃ t : State, exec (.classReport l) s = .next t.judgeDrain ∧ u.AttemptFails t l c .congestion)

/-! ## The meter, the clocks and the report writer -/

/-- A unit start (R132, R130, R133, R134): the unit charge of the band now in force applied to account and call and the unit
counted, its next start one period on; or the call cut with LIMIT_REACHED by a charge that is refused. A closed entry starts
no unit. -/
def Obligations.UnitStartChargesOrCuts : Prop :=
  ∀ (l : LineId) (s : State), s.LinesRun →
    (s.meter l = none → exec (.unitStart l) s = .next s.judgeDrain)
      ∧ ∀ e : MeterEntry, s.meter l = some e → s.Holds l e.ctx → (s.line l).state = .connected →
        let price := s.priceNow e.tariff
        let paid := (s.account e.account).charged price.unitCharge
        ∃ t : State, exec (.unitStart l) s = .next t.judgeDrain
          ∧ (¬ (s.account e.account).Pays price.unitCharge → s.EndsOnLine t l e.ctx .limitReached .limitReached)
          ∧ ((s.account e.account).Pays price.unitCharge →
            t.account e.account = paid ∧ (∀ b : AccountId, b ≠ e.account → t.account b = s.account b)
              ∧ s.UnitRuns t l e e.nextStart price paid
                { s.ctx e.ctx with charge := min ((s.ctx e.ctx).charge + price.unitCharge) 4294967295 }
              ∧ t.line l = s.line l ∧ s.OtherLines t l ∧ s.OtherCtxs t e.ctx ∧ s.SameLists t ∧ s.Keeps t)

/-- The price of a unit (R119 to R122): that of the band in force for the class, of the free unit where none is. -/
def Obligations.PriceIsThatOfTheBandInForce : Prop :=
  ∀ (s : State) (c : ClassId) (b : Option Band), s.InForce c b →
    s.priceNow (some c) = match b with
      | some x => { period := x.period, unitCharge := x.unitCharge, setupCharge := x.setupCharge }
      | none => { period := 60, unitCharge := 0, setupCharge := 0 }

/-- The calendar advances in every engine state, by main power or by the battery (R123): the second wraps at 86400 into the
day, the day at 65536; the check word moves with it, so that a sound calendar stays sound (R41), the validity is kept. Without
a supply it stands still, and a calendar that did not agree with its check word goes on disagreeing (log 27). -/
def Obligations.CalendarAdvancesOneSecond : Prop :=
  ∀ s : State,
    let k := s.retained.calendar
    (s.power.vddAbove = true ∨ s.power.vbatPresent = true → k.second ≤ 86399 →
        ∃ t : State, exec .calendarAdvance s = .next t
          ∧ t.retained.calendar = { k with
              second := if k.second < 86399 then k.second + 1 else 0, ms := 0
              day := if k.second < 86399 then k.day else BitVec.ofNat 16 (k.day.toNat + 1) }
          ∧ (isSound (calendarWords t.retained.calendar) t.retained.calendarCheck
            = isSound (calendarWords k) s.retained.calendarCheck)
          ∧ t = { s with retained := { s.retained with
              calendar := t.retained.calendar, calendarCheck := t.retained.calendarCheck } })
      ∧ (s.power.vddAbove = false → s.power.vbatPresent = false → exec .calendarAdvance s = .next s)

/-- The uptime counter rises (R104, R109, R108): by one up to its greatest value; in RUNNING every context that is then due has
left the schedule, elsewhere nothing else changes. -/
def Obligations.UptimeHandsOnDueCalls : Prop :=
  ∀ s : State, s.inReset = false →
    (s.uptime = 4294967295 → exec .uptimeTick s = .next { s with uptimeMs := 0 })
      ∧ (s.uptime < 4294967295 → s.ctl.engine ≠ .running →
        exec .uptimeTick s = .next { s with uptimeMs := 0, uptime := s.uptime + 1 })
      ∧ (s.uptime < 4294967295 → s.ctl.engine = .running → s.ListsExact →
        ∃ t : State, exec .uptimeTick s = .next t ∧ t.uptime = s.uptime + 1 ∧ t.ctl = s.ctl ∧ t.intake = s.intake
          ∧ t.mem = s.mem
          ∧ (∀ c : CtxId, (t.ctx c).state = .retryWait → ∀ due ∈ (t.ctx c).due, s.uptime + 1 < due)
          ∧ (∀ c : CtxId, (s.ctx c).state = .retryWait → s.uptime + 1 < s.dueOf c → t.ctx c = s.ctx c)
          ∧ (∀ (c : CtxId) (rest : List CtxId), s.schedule = c :: rest → s.dueOf c = s.uptime + 1 →
            (∀ d ∈ rest.head?, s.uptime + 1 < s.dueOf d) →
            (s.MaskHasUsable (s.ctx c).mask →
                t = { s with
                  uptimeMs := 0, uptime := s.uptime + 1, schedule := rest
                  ctxs := s.ctxs.set c { s.ctx c with state := .pending, due := none }
                  waiting := match (s.ctx c).origin with
                    | .urgent => { s.waiting with urgent := s.waiting.urgent ++ [c] }
                    | .routine => { s.waiting with routine := s.waiting.routine ++ [c] } }.pass)
              ∧ (¬ s.MaskHasUsable (s.ctx c).mask →
                { s with uptimeMs := 0, uptime := s.uptime + 1 }.EndsContext t c (s.ctx c).lastOutcome .noLine
                  ∧ t.schedule = rest ∧ t.waiting = s.waiting ∧ s.SameLines t)))

/-- The post of the outbox's head (R148, R12, R29, R151, R153): the record written into the slot of the producer index, the
producer index raised and written into the header, the entry gone and its place freed, the post counted for SIG. Nothing is
posted outside READY, RUNNING, DRAINING and ABORTING, before the ring is adopted or into a full ring. A write
error of the producer index halts the part with the entry still in the outbox (R166). -/
def Obligations.PostFreesTheEntry : Prop :=
  (∀ (bus : PostBus) (s : State),
      s.report.outbox = [] ∨ s.ctl.engine ∈ [.checking, .halted] ∨ s.report.adopted = false
        ∨ (s.report.producer - s.report.cachedConsumer).toNat = s.report.size →
      exec (.reportPost bus) s = .next s)
    ∧ ∀ (e : OutboxEntry) (rest : List OutboxEntry) (s : State), s.report.outbox = e :: rest → s.mayPost = true →
      let written := Memory.writeCells (slotAddr s.report.base s.report.size s.report.producer)
        (cellsAt 0 (s.entryBytes e)) s.mem
      let released := fun (need : Need) (x : Ring) => if x.state = .held need then { x with state := .active } else x
      let freed : Option Need := match e.body with
        | .callEnd c => if (s.ctx c).state = .ended then some .context else none
        | .done _ => some .doneSlot
        | _ => none
      (∃ t : State, exec (.reportPost .ok) s = .next t.judgeDrain.judgeAbort
          ∧ t.mem = Memory.writeCells s.report.header (cellsAt 0 (halfBytes (s.report.producer + 1))) written
          ∧ (∀ c : CtxId, t.ctx c =
              if e.body = .callEnd c ∧ (s.ctx c).state = .ended then Context.cleared else s.ctx c)
          ∧ (∀ r : OrderRing, t.ring r = match freed with
              | some need => released need (s.ring r)
              | none => s.ring r)
          ∧ t.intake.streak = s.intake.streak
          ∧ t.report = ({ s.report with
              producer := s.report.producer + 1, outbox := rest
              missed := if e.isUnsolicited then 0 else s.report.missed }).countPost e.urgent
          ∧ t = { s with mem := t.mem, ctxs := t.ctxs, intake := t.intake, report := t.report })
        ∧ ∃ t : State, exec (.reportPost .indexError) s = .next t
          ∧ ({ s with mem := written, report := { s.report with producer := s.report.producer + 1 } }).EntersHalted t
            .memoryFault

/-- Signal moderation (R153): the table at a post, the unsignalled count raised first, the run-out of the hold timer, the SIG
pin, and what neither of them leaves behind with the pending flag clear. -/
def Obligations.PostsAndHoldTimerRaiseSig : Prop :=
  (∀ (r : ReportWriter) (urgent : Bool),
      let counted := { r with unsignalled := min (r.unsignalled + 1) 255 }
      let raised := { r with sigPending := true, unsignalled := 0, holdTimer := .stopped }
      let started := { counted with holdTimer := .running r.holdTime }
      let expired := { counted with holdTimer := .expired }
      (r.sigPending = false →
          (urgent = true ∨ r.batch ≤ counted.unsignalled ∨ (r.holdTimer = .stopped ∧ r.holdTime = 0) →
              r.countPost urgent = raised)
            ∧ (urgent = false → counted.unsignalled < r.batch → r.holdTimer = .stopped → 0 < r.holdTime →
              r.countPost urgent = started)
            ∧ (urgent = false → counted.unsignalled < r.batch → r.holdTimer ≠ .stopped →
              r.countPost urgent = counted))
        ∧ (r.sigPending = true →
          (urgent = true ∨ (r.holdTimer = .stopped ∧ r.holdTime = 0) → r.countPost urgent = expired)
            ∧ (urgent = false → r.holdTimer = .stopped → 0 < r.holdTime → r.countPost urgent = started)
            ∧ (urgent = false → r.holdTimer ≠ .stopped → r.countPost urgent = counted)))
    ∧ (∀ (left : Nat) (s : State), s.report.holdTimer = .running left →
      exec .holdTimerExpiry s
        = .next { s with
            report := if s.report.sigPending then { s.report with holdTimer := .expired }
              else { s.report with sigPending := true, unsignalled := 0, holdTimer := .stopped } })
    ∧ (∀ s : State, s.sigPin = s.report.sigPending)
    ∧ ∀ (r : ReportWriter) (urgent : Bool),
      let kept := fun (x : ReportWriter) => x.sigPending = false → x.unsignalled < x.batch ∧ x.holdTimer ≠ .expired
      kept r → kept (r.countPost urgent)

/-- The records of the report ring (R168, R169, R173): 64 bytes each, the fields of a CALL_END, a REQUEST_DONE, a PROGRESS and
an UNSOLICITED record at their offsets with the codes of R173, an absent field by its absent value. That the unassigned bits of
byte 1, and of STARTED's table status byte, are 0 is the model's choice (log 25). -/
def Obligations.CallEndRecordLayout : Prop :=
  let num := fun (n : Nat) => BitVec.ofNat 8 n
  let bit := fun (b : Bool) => if b then (1 : Byte) else 0
  (∀ (s : State) (e : OutboxEntry), (s.entryBytes e).length = 64)
    ∧ (∀ o : CallOutcome, o.code = match o with
      | .completedNear => 0x01 | .completedFar => 0x02 | .busy => 0x03 | .noAnswer => 0x04 | .congestion => 0x05
      | .noDialtone => 0x06 | .noLoop => 0x07 | .lineLost => 0x08 | .lineFault => 0x09 | .barred => 0x0A
      | .noTariff => 0x0B | .noLine => 0x0C | .badRequest => 0x0D | .duplicateTag => 0x0E | .notRinging => 0x0F
      | .limitReached => 0x10 | .accountSuspended => 0x11 | .durationLimit => 0x12 | .cancelled => 0x13
      | .withdrawn => 0x14 | .aborted => 0x15)
    ∧ (∀ (x : CallEnd) (urgent : Bool),
      let at' := fun (k : Nat) => (x.bytes urgent).getD k 0
      at' 0 = 0x01 ∧ at' 1 = bit urgent ∧ halfAt at' 2 = x.tag
        ∧ at' 4 = x.outcome.code ∧ at' 5 = (if x.direction = .outbound then 0 else 1)
        ∧ at' 6 = (if x.origin = .urgent then 0 else 1)
        ∧ at' 7 = (match x.line with | some l => num l.val | none => 0xFF)
        ∧ at' 8 = num x.attempts
        ∧ at' 9 = (match x.account with | some a => num a.val | none => 0xFF)
        ∧ at' 10 = (match x.tariff with | some c => num c.val | none => 0xFF)
        ∧ at' 11 = num x.drops
        ∧ halfAt at' 12 = (match x.stamp with | some d => d.day | none => 0)
        ∧ wordAt at' 16 = (match x.stamp with | some d => BitVec.ofNat 32 d.second | none => 0xFFFFFFFF)
        ∧ wordAt at' 20 = BitVec.ofNat 32 x.connectedSeconds ∧ halfAt at' 24 = BitVec.ofNat 16 x.units
        ∧ wordAt at' 28 = BitVec.ofNat 32 x.charge ∧ halfAt at' 14 = 0 ∧ halfAt at' 26 = 0
        ∧ ∀ k : Nat, 32 ≤ k → at' k = 0)
    ∧ (∀ (x : DoneRecord) (urgent : Bool),
      let at' := fun (k : Nat) => (x.bytes urgent).getD k 0
      at' 0 = 0x02 ∧ at' 1 = bit urgent ∧ halfAt at' 2 = x.tag ∧ at' 4 = x.kind
        ∧ at' 5 = (match x.status with
          | .done => 0 | .badRequest => 1 | .noSuchTag => 2 | .tooLate => 3 | .notConnected => 4)
        ∧ at' 7 = 0 ∧ (∀ k : Nat, 22 ≤ k → at' k = 0)
        ∧ (x.data = none → at' 6 = 0 ∧ ∀ k : Nat, 8 ≤ k → at' k = 0)
        ∧ ∀ (n : AccountId) (a : Account), x.data = some (n, a) →
          at' 6 = 1 ∧ at' 8 = num n.val ∧ at' 9 = bit a.suspended ∧ at' 10 = bit a.limited ∧ at' 11 = num a.active
            ∧ wordAt at' 12 = BitVec.ofNat 32 a.limit ∧ wordAt at' 16 = BitVec.ofNat 32 a.total
            ∧ halfAt at' 20 = a.completed)
    ∧ (∀ (x : ProgressRecord) (urgent : Bool),
      let at' := fun (k : Nat) => (x.bytes urgent).getD k 0
      at' 0 = 0x03 ∧ at' 1 = bit urgent ∧ halfAt at' 2 = x.tag
        ∧ at' 4 = (match x.kind with
          | .attemptStart => 1 | .ringing => 2 | .answered => 3 | .attemptFailed .. => 4 | .limitWarning _ => 5)
        ∧ at' 5 = num x.line.val ∧ at' 6 = num x.attempts
        ∧ at' 7 = (match x.kind with | .attemptFailed failure _ => failure.code | _ => 0)
        ∧ wordAt at' 8 = (match x.kind with
          | .attemptFailed _ interval => BitVec.ofNat 32 interval
          | .limitWarning room => BitVec.ofNat 32 room
          | _ => 0)
        ∧ ∀ k : Nat, 12 ≤ k → at' k = 0)
    ∧ ∀ (x : UnsolicitedRecord) (missed : Nat) (urgent : Bool),
      let at' := fun (k : Nat) => (x.bytes missed urgent).getD k 0
      at' 0 = 0x04 ∧ at' 1 = bit urgent ∧ halfAt at' 2 = 0
        ∧ at' 4 = (match x.kind with
          | .started .. => 1 | .ringIn _ => 2 | .ringGone _ => 3 | .lineFault _ => 4 | .ringFault _ => 5)
        ∧ at' 5 = (match x.kind with
          | .ringIn l | .ringGone l | .lineFault l => num l.val
          | .started .. | .ringFault _ => 0xFF)
        ∧ at' 6 = (match x.kind with
          | .ringFault r => if r = .urgent then 0 else 1
          | .started .. | .ringIn _ | .ringGone _ | .lineFault _ => 0xFF)
        ∧ at' 7 = num missed ∧ halfAt at' 8 = x.stamp.day ∧ halfAt at' 10 = 0
        ∧ wordAt at' 12 = BitVec.ofNat 32 x.stamp.second ∧ (∀ k : Nat, 19 ≤ k → at' k = 0)
        ∧ ((∀ cause status valid, x.kind ≠ .started cause status valid) → ∀ k : Nat, 16 ≤ k → at' k = 0)
        ∧ ∀ (cause : ResetCause) (status : TableStatus) (valid : Bool), x.kind = .started cause status valid →
          at' 16 = (match cause with | .power => 0 | .pin => 1 | .soft => 2)
            ∧ (at' 17).getLsbD 0 = status.prefixes ∧ (at' 17).getLsbD 1 = status.bands
            ∧ (at' 17).getLsbD 2 = status.accounts ∧ (at' 17).getLsbD 3 = status.policies
            ∧ (at' 17).getLsbD 4 = status.calendar ∧ (at' 17).extractLsb' 5 3 = 0 ∧ at' 18 = bit valid

/-! ## The line allocator -/

/-- Admission at a grant (R49) and the grant (R50): a SUSPENDED account refuses with ACCOUNT_SUSPENDED, a limited one at or
above its limit with LIMIT_REACHED, any other admits; the granted line leaves the free line list and enters SEIZE for the
context, its parameters copied, with the loop timer at 2 s (R61), one attempt counted, ATTEMPT_START queued when asked for. Then
the entry to SEIZE judges the qualified loop pattern (R61, R62, R77): NORMAL ends the loop wait at once, in the dial-tone wait or
in DIALING, INVALID faults the line at once, NO_LOOP and REVERSED leave the loop timer running. -/
def Obligations.GrantSeizesTheLine : Prop :=
  ∀ (s : State) (c : CtxId) (l : LineId) (a : AccountId), (s.ctx c).account = some a →
    ((s.account a).suspended = true → s.admissionRefusal c = some .accountSuspended)
      ∧ ((s.account a).suspended = false → (s.account a).limited = true → (s.account a).limit ≤ (s.account a).total →
        s.admissionRefusal c = some .limitReached)
      ∧ ((s.account a).suspended = false →
        (s.account a).limited = false ∨ (s.account a).total < (s.account a).limit → s.admissionRefusal c = none)
      ∧ (s.grant c l).waiting = s.waiting.remove c
      ∧ (s.grant c l).freeLines = s.freeLines.filter (fun k => decide (k ≠ l))
      ∧ (s.grant c l).line l = { s.line l with
          state := .seize, dialToneWait := false, held := some c, working := (s.line l).stored
          loopTimer := some 2000 }
      ∧ s.OtherLines (s.grant c l) l ∧ (s.grant c l).meter l = s.meter l ∧ s.OtherCtxs (s.grant c l) c
      ∧ (s.grant c l).ctx c = { s.ctx c with
          state := .onLine, prevLine := (s.ctx c).lastLine, currentLine := some l, lastLine := some l
          attempts := (s.ctx c).attempts + 1
          drops := if (s.ctx c).progress && !s.progressRoom then min ((s.ctx c).drops + 1) 255
            else (s.ctx c).drops }
      ∧ (s.grant c l).report = (if (s.ctx c).progress && s.progressRoom then
          s.report.append [s.progressEntry c l .attemptStart ((s.ctx c).attempts + 1)] else s.report)
      ∧ (s.grant c l).retained = s.retained ∧ (s.grant c l).schedule = s.schedule ∧ s.Keeps (s.grant c l)
      ∧ (let g := s.grant c l
        let ln := g.line l
        (ln.loopPattern ∈ [.noLoop, .reversed] → (g.seizeEntry l c).1 = g)
          ∧ (ln.loopPattern = .normal → ln.working.dialToneRequired = true →
            (g.seizeEntry l c).1 = g.withLine l { ln.listening with
              loopTimer := none, dialToneWait := true, dialToneTimer := some (ln.working.seizeTimeout * 1000) })
          ∧ (∀ symbol : Symbol, ln.loopPattern = .normal → ln.working.dialToneRequired = false →
            (s.ctx c).symbols[0]? = some symbol →
            (g.seizeEntry l c).1 = g.withLine l
              ({ ln with state := .dialing, dialToneWait := false, loopTimer := none }.sending 1 symbol))
          ∧ ((g.seizeEntry l c).2 = true ↔ ln.loopPattern = .invalid)
          ∧ (ln.loopPattern = .invalid → ∃ v : State,
            (g.seizeEntry l c).1 = { v with report := v.afterUnsolicited (.lineFault l) }
              ∧ g.EndsContext v c (some .lineFault) .lineFault
              ∧ v.line l = { ln.cleared with state := .fault, clearGuard := ln.clearGuard, disablePending := false }
              ∧ v.meter l = none ∧ g.OtherLines v l ∧ v.waiting = g.waiting ∧ v.schedule = g.schedule))

/-- A pairing pass in RUNNING (R48 to R50, R52). It leaves no waiting context that can use a free line. It serves the first
waiting context that can use one with the first free line its mask names, and goes on from there: a refused context ends with the
outcome of its admission, the line staying free for those behind it; an admitted one is granted the line and passes the entry to
SEIZE, which stands in GrantSeizesTheLine. A line lost at that entry calls for a sweep, made when the pass has ended (log 21).
The sweep: each waiting context whose mask names no line but DISABLED and FAULT ones ends with NO_LINE, in the order of the waiting
list; every other context stays. -/
def Obligations.PassLeavesNoPair : Prop :=
  (∀ s : State, s.ctl.engine = .running → s.ListsExact → s.FreeListExact → s.LinesExact →
      (∀ c ∈ s.pass.waiting.all, ∀ l ∈ s.pass.freeLines, (s.pass.ctx c).mask.getLsbD l.val = false)
        ∧ ∀ (ahead : List CtxId) (c : CtxId) (behind : List CtxId) (before : List LineId) (l : LineId)
            (after : List LineId), s.waiting.all = ahead ++ c :: behind → s.freeLines = before ++ l :: after →
          (∀ d ∈ ahead, ∀ k ∈ s.freeLines, (s.ctx d).mask.getLsbD k.val = false) →
          (∀ k ∈ before, (s.ctx c).mask.getLsbD k.val = false) → (s.ctx c).mask.getLsbD l.val = true →
          s.firstPair = some (c, l)
            ∧ (∀ o : CallOutcome, s.admissionRefusal c = some o →
              (∃ v : State, s.EndsContext v c (s.ctx c).lastOutcome o ∧ s.SameLines v
                  ∧ v.waiting = s.waiting.remove c ∧ v.schedule = s.schedule ∧ s.pass = v.pass)
                ∧ s.pass.ctx c = (s.ctx c).ended (s.ctx c).lastOutcome o
                ∧ ((∀ d ∈ behind, (s.ctx d).mask.getLsbD l.val = false) →
                  l ∈ s.pass.freeLines ∧ s.pass.line l = s.line l))
            ∧ (s.admissionRefusal c = none →
              let t := ((s.grant c l).seizeEntry l c).1
              s.pass.ctx c = t.ctx c ∧ s.pass.line l = t.line l ∧ l ∉ s.pass.freeLines
                ∧ (s.pass.ctx c).lastLine = some l ∧ (s.pass.ctx c).attempts = (s.ctx c).attempts + 1
                ∧ ((s.line l).loopPattern ≠ .invalid → s.pass = t.pass ∧ (s.pass.ctx c).state = .onLine
                  ∧ (s.pass.ctx c).currentLine = some l ∧ (s.pass.line l).held = some c)
                ∧ ((s.line l).loopPattern = .invalid → s.pass = t.pass.sweep.pass ∧ (s.pass.ctx c).state = .ended
                  ∧ (s.pass.ctx c).finalOutcome = some .lineFault ∧ (s.pass.line l).state = .fault)))
    ∧ ∀ s : State, s.ListsExact →
      let stays := fun (c : CtxId) =>
        allLines.any fun l => (s.ctx c).mask.getLsbD l.val && decide ((s.line l).state ∉ [.disabled, .fault])
      let lost := s.waiting.all.filter fun c => !stays c
      let booked := fun (a : AccountId) => lost.countP fun c =>
        decide ((s.ctx c).direction = .outbound) && (s.ctx c).stamp.isSome && decide ((s.ctx c).account = some a)
      (∀ c ∈ lost, s.sweep.ctx c = (s.ctx c).ended (s.ctx c).lastOutcome .noLine)
        ∧ (∀ c ∉ lost, s.sweep.ctx c = s.ctx c)
        ∧ s.sweep.waiting = { urgent := s.waiting.urgent.filter stays, routine := s.waiting.routine.filter stays }
        ∧ s.sweep.report
          = s.report.append (lost.map fun c => { body := .callEnd c, urgent := (s.ctx c).signalNow })
        ∧ (∀ a : AccountId, s.sweep.account a = (s.account a).afterEnds (booked a))
        ∧ ((∀ c ∈ lost, (s.ctx c).stamp = none) → s.sweep.retained = s.retained)
        ∧ s.sweep = { s with
            ctxs := s.sweep.ctxs, waiting := s.sweep.waiting, report := s.sweep.report
            retained := { s.retained with
              accounts := s.sweep.retained.accounts, accountCheck := s.sweep.retained.accountCheck } }
end

