-- ==== Sys2Proof/Laws/State.lean ====
section
/-! SUPPORT. One lemma for each field of the state under each update of Machine/Ops.lean and Machine/Memory.lean, so that no
proof unfolds a record update; and what a context, a line, a ring or a metering entry reads as after one is changed. -/

namespace Sys2Proof.Machine

/-! ## `modCtx` -/

@[simp] theorem State.modCtx_ctl (s : State) (c : CtxId) (f : Context → Context) :
    (s.modCtx c f).ctl = s.ctl := rfl

@[simp] theorem State.modCtx_power (s : State) (c : CtxId) (f : Context → Context) :
    (s.modCtx c f).power = s.power := rfl

@[simp] theorem State.modCtx_intake (s : State) (c : CtxId) (f : Context → Context) :
    (s.modCtx c f).intake = s.intake := rfl

@[simp] theorem State.modCtx_ctxs (s : State) (c : CtxId) (f : Context → Context) :
    (s.modCtx c f).ctxs = s.ctxs.set c (f (s.ctx c)) := rfl

@[simp] theorem State.modCtx_waiting (s : State) (c : CtxId) (f : Context → Context) :
    (s.modCtx c f).waiting = s.waiting := rfl

@[simp] theorem State.modCtx_freeLines (s : State) (c : CtxId) (f : Context → Context) :
    (s.modCtx c f).freeLines = s.freeLines := rfl

@[simp] theorem State.modCtx_lines (s : State) (c : CtxId) (f : Context → Context) :
    (s.modCtx c f).lines = s.lines := rfl

@[simp] theorem State.modCtx_schedule (s : State) (c : CtxId) (f : Context → Context) :
    (s.modCtx c f).schedule = s.schedule := rfl

@[simp] theorem State.modCtx_uptime (s : State) (c : CtxId) (f : Context → Context) :
    (s.modCtx c f).uptime = s.uptime := rfl

@[simp] theorem State.modCtx_uptimeMs (s : State) (c : CtxId) (f : Context → Context) :
    (s.modCtx c f).uptimeMs = s.uptimeMs := rfl

@[simp] theorem State.modCtx_retained (s : State) (c : CtxId) (f : Context → Context) :
    (s.modCtx c f).retained = s.retained := rfl

@[simp] theorem State.modCtx_meters (s : State) (c : CtxId) (f : Context → Context) :
    (s.modCtx c f).meters = s.meters := rfl

@[simp] theorem State.modCtx_report (s : State) (c : CtxId) (f : Context → Context) :
    (s.modCtx c f).report = s.report := rfl

@[simp] theorem State.modCtx_mem (s : State) (c : CtxId) (f : Context → Context) :
    (s.modCtx c f).mem = s.mem := rfl

@[simp] theorem State.modCtx_seed (s : State) (c : CtxId) (f : Context → Context) :
    (s.modCtx c f).seed = s.seed := rfl

@[simp] theorem State.modCtx_pending (s : State) (c : CtxId) (f : Context → Context) :
    (s.modCtx c f).pending = s.pending := rfl

/-! ## `modLine` -/

@[simp] theorem State.modLine_ctl (s : State) (l : LineId) (f : Line → Line) :
    (s.modLine l f).ctl = s.ctl := rfl

@[simp] theorem State.modLine_power (s : State) (l : LineId) (f : Line → Line) :
    (s.modLine l f).power = s.power := rfl

@[simp] theorem State.modLine_intake (s : State) (l : LineId) (f : Line → Line) :
    (s.modLine l f).intake = s.intake := rfl

@[simp] theorem State.modLine_ctxs (s : State) (l : LineId) (f : Line → Line) :
    (s.modLine l f).ctxs = s.ctxs := rfl

@[simp] theorem State.modLine_waiting (s : State) (l : LineId) (f : Line → Line) :
    (s.modLine l f).waiting = s.waiting := rfl

@[simp] theorem State.modLine_freeLines (s : State) (l : LineId) (f : Line → Line) :
    (s.modLine l f).freeLines = s.freeLines := rfl

@[simp] theorem State.modLine_lines (s : State) (l : LineId) (f : Line → Line) :
    (s.modLine l f).lines = s.lines.set l (f (s.line l)) := rfl

@[simp] theorem State.modLine_schedule (s : State) (l : LineId) (f : Line → Line) :
    (s.modLine l f).schedule = s.schedule := rfl

@[simp] theorem State.modLine_uptime (s : State) (l : LineId) (f : Line → Line) :
    (s.modLine l f).uptime = s.uptime := rfl

@[simp] theorem State.modLine_uptimeMs (s : State) (l : LineId) (f : Line → Line) :
    (s.modLine l f).uptimeMs = s.uptimeMs := rfl

@[simp] theorem State.modLine_retained (s : State) (l : LineId) (f : Line → Line) :
    (s.modLine l f).retained = s.retained := rfl

@[simp] theorem State.modLine_meters (s : State) (l : LineId) (f : Line → Line) :
    (s.modLine l f).meters = s.meters := rfl

@[simp] theorem State.modLine_report (s : State) (l : LineId) (f : Line → Line) :
    (s.modLine l f).report = s.report := rfl

@[simp] theorem State.modLine_mem (s : State) (l : LineId) (f : Line → Line) :
    (s.modLine l f).mem = s.mem := rfl

@[simp] theorem State.modLine_seed (s : State) (l : LineId) (f : Line → Line) :
    (s.modLine l f).seed = s.seed := rfl

@[simp] theorem State.modLine_pending (s : State) (l : LineId) (f : Line → Line) :
    (s.modLine l f).pending = s.pending := rfl

/-! ## `setMeter` -/

@[simp] theorem State.setMeter_ctl (s : State) (l : LineId) (e : Option MeterEntry) :
    (s.setMeter l e).ctl = s.ctl := rfl

@[simp] theorem State.setMeter_power (s : State) (l : LineId) (e : Option MeterEntry) :
    (s.setMeter l e).power = s.power := rfl

@[simp] theorem State.setMeter_intake (s : State) (l : LineId) (e : Option MeterEntry) :
    (s.setMeter l e).intake = s.intake := rfl

@[simp] theorem State.setMeter_ctxs (s : State) (l : LineId) (e : Option MeterEntry) :
    (s.setMeter l e).ctxs = s.ctxs := rfl

@[simp] theorem State.setMeter_waiting (s : State) (l : LineId) (e : Option MeterEntry) :
    (s.setMeter l e).waiting = s.waiting := rfl

@[simp] theorem State.setMeter_freeLines (s : State) (l : LineId) (e : Option MeterEntry) :
    (s.setMeter l e).freeLines = s.freeLines := rfl

@[simp] theorem State.setMeter_lines (s : State) (l : LineId) (e : Option MeterEntry) :
    (s.setMeter l e).lines = s.lines := rfl

@[simp] theorem State.setMeter_schedule (s : State) (l : LineId) (e : Option MeterEntry) :
    (s.setMeter l e).schedule = s.schedule := rfl

@[simp] theorem State.setMeter_uptime (s : State) (l : LineId) (e : Option MeterEntry) :
    (s.setMeter l e).uptime = s.uptime := rfl

@[simp] theorem State.setMeter_uptimeMs (s : State) (l : LineId) (e : Option MeterEntry) :
    (s.setMeter l e).uptimeMs = s.uptimeMs := rfl

@[simp] theorem State.setMeter_retained (s : State) (l : LineId) (e : Option MeterEntry) :
    (s.setMeter l e).retained = s.retained := rfl

@[simp] theorem State.setMeter_meters (s : State) (l : LineId) (e : Option MeterEntry) :
    (s.setMeter l e).meters = s.meters.set l e := rfl

@[simp] theorem State.setMeter_report (s : State) (l : LineId) (e : Option MeterEntry) :
    (s.setMeter l e).report = s.report := rfl

@[simp] theorem State.setMeter_mem (s : State) (l : LineId) (e : Option MeterEntry) :
    (s.setMeter l e).mem = s.mem := rfl

@[simp] theorem State.setMeter_seed (s : State) (l : LineId) (e : Option MeterEntry) :
    (s.setMeter l e).seed = s.seed := rfl

@[simp] theorem State.setMeter_pending (s : State) (l : LineId) (e : Option MeterEntry) :
    (s.setMeter l e).pending = s.pending := rfl

/-! ## `modRetained` -/

@[simp] theorem State.modRetained_ctl (s : State) (f : Retained → Retained) :
    (s.modRetained f).ctl = s.ctl := rfl

@[simp] theorem State.modRetained_power (s : State) (f : Retained → Retained) :
    (s.modRetained f).power = s.power := rfl

@[simp] theorem State.modRetained_intake (s : State) (f : Retained → Retained) :
    (s.modRetained f).intake = s.intake := rfl

@[simp] theorem State.modRetained_ctxs (s : State) (f : Retained → Retained) :
    (s.modRetained f).ctxs = s.ctxs := rfl

@[simp] theorem State.modRetained_waiting (s : State) (f : Retained → Retained) :
    (s.modRetained f).waiting = s.waiting := rfl

@[simp] theorem State.modRetained_freeLines (s : State) (f : Retained → Retained) :
    (s.modRetained f).freeLines = s.freeLines := rfl

@[simp] theorem State.modRetained_lines (s : State) (f : Retained → Retained) :
    (s.modRetained f).lines = s.lines := rfl

@[simp] theorem State.modRetained_schedule (s : State) (f : Retained → Retained) :
    (s.modRetained f).schedule = s.schedule := rfl

@[simp] theorem State.modRetained_uptime (s : State) (f : Retained → Retained) :
    (s.modRetained f).uptime = s.uptime := rfl

@[simp] theorem State.modRetained_uptimeMs (s : State) (f : Retained → Retained) :
    (s.modRetained f).uptimeMs = s.uptimeMs := rfl

@[simp] theorem State.modRetained_retained (s : State) (f : Retained → Retained) :
    (s.modRetained f).retained = f s.retained := rfl

@[simp] theorem State.modRetained_meters (s : State) (f : Retained → Retained) :
    (s.modRetained f).meters = s.meters := rfl

@[simp] theorem State.modRetained_report (s : State) (f : Retained → Retained) :
    (s.modRetained f).report = s.report := rfl

@[simp] theorem State.modRetained_mem (s : State) (f : Retained → Retained) :
    (s.modRetained f).mem = s.mem := rfl

@[simp] theorem State.modRetained_seed (s : State) (f : Retained → Retained) :
    (s.modRetained f).seed = s.seed := rfl

@[simp] theorem State.modRetained_pending (s : State) (f : Retained → Retained) :
    (s.modRetained f).pending = s.pending := rfl

/-! ## `modAccount` -/

@[simp] theorem State.modAccount_ctl (s : State) (a : AccountId) (f : Account → Account) :
    (s.modAccount a f).ctl = s.ctl := rfl

@[simp] theorem State.modAccount_power (s : State) (a : AccountId) (f : Account → Account) :
    (s.modAccount a f).power = s.power := rfl

@[simp] theorem State.modAccount_intake (s : State) (a : AccountId) (f : Account → Account) :
    (s.modAccount a f).intake = s.intake := rfl

@[simp] theorem State.modAccount_ctxs (s : State) (a : AccountId) (f : Account → Account) :
    (s.modAccount a f).ctxs = s.ctxs := rfl

@[simp] theorem State.modAccount_waiting (s : State) (a : AccountId) (f : Account → Account) :
    (s.modAccount a f).waiting = s.waiting := rfl

@[simp] theorem State.modAccount_freeLines (s : State) (a : AccountId) (f : Account → Account) :
    (s.modAccount a f).freeLines = s.freeLines := rfl

@[simp] theorem State.modAccount_lines (s : State) (a : AccountId) (f : Account → Account) :
    (s.modAccount a f).lines = s.lines := rfl

@[simp] theorem State.modAccount_schedule (s : State) (a : AccountId) (f : Account → Account) :
    (s.modAccount a f).schedule = s.schedule := rfl

@[simp] theorem State.modAccount_uptime (s : State) (a : AccountId) (f : Account → Account) :
    (s.modAccount a f).uptime = s.uptime := rfl

@[simp] theorem State.modAccount_uptimeMs (s : State) (a : AccountId) (f : Account → Account) :
    (s.modAccount a f).uptimeMs = s.uptimeMs := rfl

@[simp] theorem State.modAccount_retained (s : State) (a : AccountId) (f : Account → Account) :
    (s.modAccount a f).retained = s.retained.modAccount a f := rfl

@[simp] theorem State.modAccount_meters (s : State) (a : AccountId) (f : Account → Account) :
    (s.modAccount a f).meters = s.meters := rfl

@[simp] theorem State.modAccount_report (s : State) (a : AccountId) (f : Account → Account) :
    (s.modAccount a f).report = s.report := rfl

@[simp] theorem State.modAccount_mem (s : State) (a : AccountId) (f : Account → Account) :
    (s.modAccount a f).mem = s.mem := rfl

@[simp] theorem State.modAccount_seed (s : State) (a : AccountId) (f : Account → Account) :
    (s.modAccount a f).seed = s.seed := rfl

@[simp] theorem State.modAccount_pending (s : State) (a : AccountId) (f : Account → Account) :
    (s.modAccount a f).pending = s.pending := rfl

/-! ## `modCtl` -/

@[simp] theorem State.modCtl_ctl (s : State) (f : Control → Control) :
    (s.modCtl f).ctl = f s.ctl := rfl

@[simp] theorem State.modCtl_power (s : State) (f : Control → Control) :
    (s.modCtl f).power = s.power := rfl

@[simp] theorem State.modCtl_intake (s : State) (f : Control → Control) :
    (s.modCtl f).intake = s.intake := rfl

@[simp] theorem State.modCtl_ctxs (s : State) (f : Control → Control) :
    (s.modCtl f).ctxs = s.ctxs := rfl

@[simp] theorem State.modCtl_waiting (s : State) (f : Control → Control) :
    (s.modCtl f).waiting = s.waiting := rfl

@[simp] theorem State.modCtl_freeLines (s : State) (f : Control → Control) :
    (s.modCtl f).freeLines = s.freeLines := rfl

@[simp] theorem State.modCtl_lines (s : State) (f : Control → Control) :
    (s.modCtl f).lines = s.lines := rfl

@[simp] theorem State.modCtl_schedule (s : State) (f : Control → Control) :
    (s.modCtl f).schedule = s.schedule := rfl

@[simp] theorem State.modCtl_uptime (s : State) (f : Control → Control) :
    (s.modCtl f).uptime = s.uptime := rfl

@[simp] theorem State.modCtl_uptimeMs (s : State) (f : Control → Control) :
    (s.modCtl f).uptimeMs = s.uptimeMs := rfl

@[simp] theorem State.modCtl_retained (s : State) (f : Control → Control) :
    (s.modCtl f).retained = s.retained := rfl

@[simp] theorem State.modCtl_meters (s : State) (f : Control → Control) :
    (s.modCtl f).meters = s.meters := rfl

@[simp] theorem State.modCtl_report (s : State) (f : Control → Control) :
    (s.modCtl f).report = s.report := rfl

@[simp] theorem State.modCtl_mem (s : State) (f : Control → Control) :
    (s.modCtl f).mem = s.mem := rfl

@[simp] theorem State.modCtl_seed (s : State) (f : Control → Control) :
    (s.modCtl f).seed = s.seed := rfl

@[simp] theorem State.modCtl_pending (s : State) (f : Control → Control) :
    (s.modCtl f).pending = s.pending := rfl

/-! ## `setError` -/

@[simp] theorem State.setError_ctl (s : State) (e : ErrorCode) :
    (s.setError e).ctl = { s.ctl with error := e } := rfl

@[simp] theorem State.setError_power (s : State) (e : ErrorCode) :
    (s.setError e).power = s.power := rfl

@[simp] theorem State.setError_intake (s : State) (e : ErrorCode) :
    (s.setError e).intake = s.intake := rfl

@[simp] theorem State.setError_ctxs (s : State) (e : ErrorCode) :
    (s.setError e).ctxs = s.ctxs := rfl

@[simp] theorem State.setError_waiting (s : State) (e : ErrorCode) :
    (s.setError e).waiting = s.waiting := rfl

@[simp] theorem State.setError_freeLines (s : State) (e : ErrorCode) :
    (s.setError e).freeLines = s.freeLines := rfl

@[simp] theorem State.setError_lines (s : State) (e : ErrorCode) :
    (s.setError e).lines = s.lines := rfl

@[simp] theorem State.setError_schedule (s : State) (e : ErrorCode) :
    (s.setError e).schedule = s.schedule := rfl

@[simp] theorem State.setError_uptime (s : State) (e : ErrorCode) :
    (s.setError e).uptime = s.uptime := rfl

@[simp] theorem State.setError_uptimeMs (s : State) (e : ErrorCode) :
    (s.setError e).uptimeMs = s.uptimeMs := rfl

@[simp] theorem State.setError_retained (s : State) (e : ErrorCode) :
    (s.setError e).retained = s.retained := rfl

@[simp] theorem State.setError_meters (s : State) (e : ErrorCode) :
    (s.setError e).meters = s.meters := rfl

@[simp] theorem State.setError_report (s : State) (e : ErrorCode) :
    (s.setError e).report = s.report := rfl

@[simp] theorem State.setError_mem (s : State) (e : ErrorCode) :
    (s.setError e).mem = s.mem := rfl

@[simp] theorem State.setError_seed (s : State) (e : ErrorCode) :
    (s.setError e).seed = s.seed := rfl

@[simp] theorem State.setError_pending (s : State) (e : ErrorCode) :
    (s.setError e).pending = s.pending := rfl

/-! ## `setEngine` -/

@[simp] theorem State.setEngine_ctl (s : State) (e : EngineState) :
    (s.setEngine e).ctl = { s.ctl with engine := e } := rfl

@[simp] theorem State.setEngine_power (s : State) (e : EngineState) :
    (s.setEngine e).power = s.power := rfl

@[simp] theorem State.setEngine_intake (s : State) (e : EngineState) :
    (s.setEngine e).intake = s.intake := rfl

@[simp] theorem State.setEngine_ctxs (s : State) (e : EngineState) :
    (s.setEngine e).ctxs = s.ctxs := rfl

@[simp] theorem State.setEngine_waiting (s : State) (e : EngineState) :
    (s.setEngine e).waiting = s.waiting := rfl

@[simp] theorem State.setEngine_freeLines (s : State) (e : EngineState) :
    (s.setEngine e).freeLines = s.freeLines := rfl

@[simp] theorem State.setEngine_lines (s : State) (e : EngineState) :
    (s.setEngine e).lines = s.lines := rfl

@[simp] theorem State.setEngine_schedule (s : State) (e : EngineState) :
    (s.setEngine e).schedule = s.schedule := rfl

@[simp] theorem State.setEngine_uptime (s : State) (e : EngineState) :
    (s.setEngine e).uptime = s.uptime := rfl

@[simp] theorem State.setEngine_uptimeMs (s : State) (e : EngineState) :
    (s.setEngine e).uptimeMs = s.uptimeMs := rfl

@[simp] theorem State.setEngine_retained (s : State) (e : EngineState) :
    (s.setEngine e).retained = s.retained := rfl

@[simp] theorem State.setEngine_meters (s : State) (e : EngineState) :
    (s.setEngine e).meters = s.meters := rfl

@[simp] theorem State.setEngine_report (s : State) (e : EngineState) :
    (s.setEngine e).report = s.report := rfl

@[simp] theorem State.setEngine_mem (s : State) (e : EngineState) :
    (s.setEngine e).mem = s.mem := rfl

@[simp] theorem State.setEngine_seed (s : State) (e : EngineState) :
    (s.setEngine e).seed = s.seed := rfl

@[simp] theorem State.setEngine_pending (s : State) (e : EngineState) :
    (s.setEngine e).pending = s.pending := rfl

/-! ## `modReport` -/

@[simp] theorem State.modReport_ctl (s : State) (f : ReportWriter → ReportWriter) :
    (s.modReport f).ctl = s.ctl := rfl

@[simp] theorem State.modReport_power (s : State) (f : ReportWriter → ReportWriter) :
    (s.modReport f).power = s.power := rfl

@[simp] theorem State.modReport_intake (s : State) (f : ReportWriter → ReportWriter) :
    (s.modReport f).intake = s.intake := rfl

@[simp] theorem State.modReport_ctxs (s : State) (f : ReportWriter → ReportWriter) :
    (s.modReport f).ctxs = s.ctxs := rfl

@[simp] theorem State.modReport_waiting (s : State) (f : ReportWriter → ReportWriter) :
    (s.modReport f).waiting = s.waiting := rfl

@[simp] theorem State.modReport_freeLines (s : State) (f : ReportWriter → ReportWriter) :
    (s.modReport f).freeLines = s.freeLines := rfl

@[simp] theorem State.modReport_lines (s : State) (f : ReportWriter → ReportWriter) :
    (s.modReport f).lines = s.lines := rfl

@[simp] theorem State.modReport_schedule (s : State) (f : ReportWriter → ReportWriter) :
    (s.modReport f).schedule = s.schedule := rfl

@[simp] theorem State.modReport_uptime (s : State) (f : ReportWriter → ReportWriter) :
    (s.modReport f).uptime = s.uptime := rfl

@[simp] theorem State.modReport_uptimeMs (s : State) (f : ReportWriter → ReportWriter) :
    (s.modReport f).uptimeMs = s.uptimeMs := rfl

@[simp] theorem State.modReport_retained (s : State) (f : ReportWriter → ReportWriter) :
    (s.modReport f).retained = s.retained := rfl

@[simp] theorem State.modReport_meters (s : State) (f : ReportWriter → ReportWriter) :
    (s.modReport f).meters = s.meters := rfl

@[simp] theorem State.modReport_report (s : State) (f : ReportWriter → ReportWriter) :
    (s.modReport f).report = f s.report := rfl

@[simp] theorem State.modReport_mem (s : State) (f : ReportWriter → ReportWriter) :
    (s.modReport f).mem = s.mem := rfl

@[simp] theorem State.modReport_seed (s : State) (f : ReportWriter → ReportWriter) :
    (s.modReport f).seed = s.seed := rfl

@[simp] theorem State.modReport_pending (s : State) (f : ReportWriter → ReportWriter) :
    (s.modReport f).pending = s.pending := rfl

/-! ## `setStreak` -/

@[simp] theorem State.setStreak_ctl (s : State) (n : Nat) :
    (s.setStreak n).ctl = s.ctl := rfl

@[simp] theorem State.setStreak_power (s : State) (n : Nat) :
    (s.setStreak n).power = s.power := rfl

@[simp] theorem State.setStreak_intake (s : State) (n : Nat) :
    (s.setStreak n).intake = { s.intake with streak := n } := rfl

@[simp] theorem State.setStreak_ctxs (s : State) (n : Nat) :
    (s.setStreak n).ctxs = s.ctxs := rfl

@[simp] theorem State.setStreak_waiting (s : State) (n : Nat) :
    (s.setStreak n).waiting = s.waiting := rfl

@[simp] theorem State.setStreak_freeLines (s : State) (n : Nat) :
    (s.setStreak n).freeLines = s.freeLines := rfl

@[simp] theorem State.setStreak_lines (s : State) (n : Nat) :
    (s.setStreak n).lines = s.lines := rfl

@[simp] theorem State.setStreak_schedule (s : State) (n : Nat) :
    (s.setStreak n).schedule = s.schedule := rfl

@[simp] theorem State.setStreak_uptime (s : State) (n : Nat) :
    (s.setStreak n).uptime = s.uptime := rfl

@[simp] theorem State.setStreak_uptimeMs (s : State) (n : Nat) :
    (s.setStreak n).uptimeMs = s.uptimeMs := rfl

@[simp] theorem State.setStreak_retained (s : State) (n : Nat) :
    (s.setStreak n).retained = s.retained := rfl

@[simp] theorem State.setStreak_meters (s : State) (n : Nat) :
    (s.setStreak n).meters = s.meters := rfl

@[simp] theorem State.setStreak_report (s : State) (n : Nat) :
    (s.setStreak n).report = s.report := rfl

@[simp] theorem State.setStreak_mem (s : State) (n : Nat) :
    (s.setStreak n).mem = s.mem := rfl

@[simp] theorem State.setStreak_seed (s : State) (n : Nat) :
    (s.setStreak n).seed = s.seed := rfl

@[simp] theorem State.setStreak_pending (s : State) (n : Nat) :
    (s.setStreak n).pending = s.pending := rfl

/-! ## `setWaiting` -/

@[simp] theorem State.setWaiting_ctl (s : State) (w : Waiting) :
    (s.setWaiting w).ctl = s.ctl := rfl

@[simp] theorem State.setWaiting_power (s : State) (w : Waiting) :
    (s.setWaiting w).power = s.power := rfl

@[simp] theorem State.setWaiting_intake (s : State) (w : Waiting) :
    (s.setWaiting w).intake = s.intake := rfl

@[simp] theorem State.setWaiting_ctxs (s : State) (w : Waiting) :
    (s.setWaiting w).ctxs = s.ctxs := rfl

@[simp] theorem State.setWaiting_waiting (s : State) (w : Waiting) :
    (s.setWaiting w).waiting = w := rfl

@[simp] theorem State.setWaiting_freeLines (s : State) (w : Waiting) :
    (s.setWaiting w).freeLines = s.freeLines := rfl

@[simp] theorem State.setWaiting_lines (s : State) (w : Waiting) :
    (s.setWaiting w).lines = s.lines := rfl

@[simp] theorem State.setWaiting_schedule (s : State) (w : Waiting) :
    (s.setWaiting w).schedule = s.schedule := rfl

@[simp] theorem State.setWaiting_uptime (s : State) (w : Waiting) :
    (s.setWaiting w).uptime = s.uptime := rfl

@[simp] theorem State.setWaiting_uptimeMs (s : State) (w : Waiting) :
    (s.setWaiting w).uptimeMs = s.uptimeMs := rfl

@[simp] theorem State.setWaiting_retained (s : State) (w : Waiting) :
    (s.setWaiting w).retained = s.retained := rfl

@[simp] theorem State.setWaiting_meters (s : State) (w : Waiting) :
    (s.setWaiting w).meters = s.meters := rfl

@[simp] theorem State.setWaiting_report (s : State) (w : Waiting) :
    (s.setWaiting w).report = s.report := rfl

@[simp] theorem State.setWaiting_mem (s : State) (w : Waiting) :
    (s.setWaiting w).mem = s.mem := rfl

@[simp] theorem State.setWaiting_seed (s : State) (w : Waiting) :
    (s.setWaiting w).seed = s.seed := rfl

@[simp] theorem State.setWaiting_pending (s : State) (w : Waiting) :
    (s.setWaiting w).pending = s.pending := rfl

/-! ## `setFree` -/

@[simp] theorem State.setFree_ctl (s : State) (ls : List LineId) :
    (s.setFree ls).ctl = s.ctl := rfl

@[simp] theorem State.setFree_power (s : State) (ls : List LineId) :
    (s.setFree ls).power = s.power := rfl

@[simp] theorem State.setFree_intake (s : State) (ls : List LineId) :
    (s.setFree ls).intake = s.intake := rfl

@[simp] theorem State.setFree_ctxs (s : State) (ls : List LineId) :
    (s.setFree ls).ctxs = s.ctxs := rfl

@[simp] theorem State.setFree_waiting (s : State) (ls : List LineId) :
    (s.setFree ls).waiting = s.waiting := rfl

@[simp] theorem State.setFree_freeLines (s : State) (ls : List LineId) :
    (s.setFree ls).freeLines = ls := rfl

@[simp] theorem State.setFree_lines (s : State) (ls : List LineId) :
    (s.setFree ls).lines = s.lines := rfl

@[simp] theorem State.setFree_schedule (s : State) (ls : List LineId) :
    (s.setFree ls).schedule = s.schedule := rfl

@[simp] theorem State.setFree_uptime (s : State) (ls : List LineId) :
    (s.setFree ls).uptime = s.uptime := rfl

@[simp] theorem State.setFree_uptimeMs (s : State) (ls : List LineId) :
    (s.setFree ls).uptimeMs = s.uptimeMs := rfl

@[simp] theorem State.setFree_retained (s : State) (ls : List LineId) :
    (s.setFree ls).retained = s.retained := rfl

@[simp] theorem State.setFree_meters (s : State) (ls : List LineId) :
    (s.setFree ls).meters = s.meters := rfl

@[simp] theorem State.setFree_report (s : State) (ls : List LineId) :
    (s.setFree ls).report = s.report := rfl

@[simp] theorem State.setFree_mem (s : State) (ls : List LineId) :
    (s.setFree ls).mem = s.mem := rfl

@[simp] theorem State.setFree_seed (s : State) (ls : List LineId) :
    (s.setFree ls).seed = s.seed := rfl

@[simp] theorem State.setFree_pending (s : State) (ls : List LineId) :
    (s.setFree ls).pending = s.pending := rfl

/-! ## `joinFree` -/

@[simp] theorem State.joinFree_ctl (s : State) (l : LineId) :
    (s.joinFree l).ctl = s.ctl := rfl

@[simp] theorem State.joinFree_power (s : State) (l : LineId) :
    (s.joinFree l).power = s.power := rfl

@[simp] theorem State.joinFree_intake (s : State) (l : LineId) :
    (s.joinFree l).intake = s.intake := rfl

@[simp] theorem State.joinFree_ctxs (s : State) (l : LineId) :
    (s.joinFree l).ctxs = s.ctxs := rfl

@[simp] theorem State.joinFree_waiting (s : State) (l : LineId) :
    (s.joinFree l).waiting = s.waiting := rfl

@[simp] theorem State.joinFree_freeLines (s : State) (l : LineId) :
    (s.joinFree l).freeLines = s.freeLines ++ [l] := rfl

@[simp] theorem State.joinFree_lines (s : State) (l : LineId) :
    (s.joinFree l).lines = s.lines := rfl

@[simp] theorem State.joinFree_schedule (s : State) (l : LineId) :
    (s.joinFree l).schedule = s.schedule := rfl

@[simp] theorem State.joinFree_uptime (s : State) (l : LineId) :
    (s.joinFree l).uptime = s.uptime := rfl

@[simp] theorem State.joinFree_uptimeMs (s : State) (l : LineId) :
    (s.joinFree l).uptimeMs = s.uptimeMs := rfl

@[simp] theorem State.joinFree_retained (s : State) (l : LineId) :
    (s.joinFree l).retained = s.retained := rfl

@[simp] theorem State.joinFree_meters (s : State) (l : LineId) :
    (s.joinFree l).meters = s.meters := rfl

@[simp] theorem State.joinFree_report (s : State) (l : LineId) :
    (s.joinFree l).report = s.report := rfl

@[simp] theorem State.joinFree_mem (s : State) (l : LineId) :
    (s.joinFree l).mem = s.mem := rfl

@[simp] theorem State.joinFree_seed (s : State) (l : LineId) :
    (s.joinFree l).seed = s.seed := rfl

@[simp] theorem State.joinFree_pending (s : State) (l : LineId) :
    (s.joinFree l).pending = s.pending := rfl

/-! ## `leaveFree` -/

@[simp] theorem State.leaveFree_ctl (s : State) (l : LineId) :
    (s.leaveFree l).ctl = s.ctl := rfl

@[simp] theorem State.leaveFree_power (s : State) (l : LineId) :
    (s.leaveFree l).power = s.power := rfl

@[simp] theorem State.leaveFree_intake (s : State) (l : LineId) :
    (s.leaveFree l).intake = s.intake := rfl

@[simp] theorem State.leaveFree_ctxs (s : State) (l : LineId) :
    (s.leaveFree l).ctxs = s.ctxs := rfl

@[simp] theorem State.leaveFree_waiting (s : State) (l : LineId) :
    (s.leaveFree l).waiting = s.waiting := rfl

@[simp] theorem State.leaveFree_freeLines (s : State) (l : LineId) :
    (s.leaveFree l).freeLines = s.freeLines.filter fun k => decide (k ≠ l) := rfl

@[simp] theorem State.leaveFree_lines (s : State) (l : LineId) :
    (s.leaveFree l).lines = s.lines := rfl

@[simp] theorem State.leaveFree_schedule (s : State) (l : LineId) :
    (s.leaveFree l).schedule = s.schedule := rfl

@[simp] theorem State.leaveFree_uptime (s : State) (l : LineId) :
    (s.leaveFree l).uptime = s.uptime := rfl

@[simp] theorem State.leaveFree_uptimeMs (s : State) (l : LineId) :
    (s.leaveFree l).uptimeMs = s.uptimeMs := rfl

@[simp] theorem State.leaveFree_retained (s : State) (l : LineId) :
    (s.leaveFree l).retained = s.retained := rfl

@[simp] theorem State.leaveFree_meters (s : State) (l : LineId) :
    (s.leaveFree l).meters = s.meters := rfl

@[simp] theorem State.leaveFree_report (s : State) (l : LineId) :
    (s.leaveFree l).report = s.report := rfl

@[simp] theorem State.leaveFree_mem (s : State) (l : LineId) :
    (s.leaveFree l).mem = s.mem := rfl

@[simp] theorem State.leaveFree_seed (s : State) (l : LineId) :
    (s.leaveFree l).seed = s.seed := rfl

@[simp] theorem State.leaveFree_pending (s : State) (l : LineId) :
    (s.leaveFree l).pending = s.pending := rfl

/-! ## `setSchedule` -/

@[simp] theorem State.setSchedule_ctl (s : State) (cs : List CtxId) :
    (s.setSchedule cs).ctl = s.ctl := rfl

@[simp] theorem State.setSchedule_power (s : State) (cs : List CtxId) :
    (s.setSchedule cs).power = s.power := rfl

@[simp] theorem State.setSchedule_intake (s : State) (cs : List CtxId) :
    (s.setSchedule cs).intake = s.intake := rfl

@[simp] theorem State.setSchedule_ctxs (s : State) (cs : List CtxId) :
    (s.setSchedule cs).ctxs = s.ctxs := rfl

@[simp] theorem State.setSchedule_waiting (s : State) (cs : List CtxId) :
    (s.setSchedule cs).waiting = s.waiting := rfl

@[simp] theorem State.setSchedule_freeLines (s : State) (cs : List CtxId) :
    (s.setSchedule cs).freeLines = s.freeLines := rfl

@[simp] theorem State.setSchedule_lines (s : State) (cs : List CtxId) :
    (s.setSchedule cs).lines = s.lines := rfl

@[simp] theorem State.setSchedule_schedule (s : State) (cs : List CtxId) :
    (s.setSchedule cs).schedule = cs := rfl

@[simp] theorem State.setSchedule_uptime (s : State) (cs : List CtxId) :
    (s.setSchedule cs).uptime = s.uptime := rfl

@[simp] theorem State.setSchedule_uptimeMs (s : State) (cs : List CtxId) :
    (s.setSchedule cs).uptimeMs = s.uptimeMs := rfl

@[simp] theorem State.setSchedule_retained (s : State) (cs : List CtxId) :
    (s.setSchedule cs).retained = s.retained := rfl

@[simp] theorem State.setSchedule_meters (s : State) (cs : List CtxId) :
    (s.setSchedule cs).meters = s.meters := rfl

@[simp] theorem State.setSchedule_report (s : State) (cs : List CtxId) :
    (s.setSchedule cs).report = s.report := rfl

@[simp] theorem State.setSchedule_mem (s : State) (cs : List CtxId) :
    (s.setSchedule cs).mem = s.mem := rfl

@[simp] theorem State.setSchedule_seed (s : State) (cs : List CtxId) :
    (s.setSchedule cs).seed = s.seed := rfl

@[simp] theorem State.setSchedule_pending (s : State) (cs : List CtxId) :
    (s.setSchedule cs).pending = s.pending := rfl

/-! ## `unschedule` -/

@[simp] theorem State.unschedule_ctl (s : State) (c : CtxId) :
    (s.unschedule c).ctl = s.ctl := rfl

@[simp] theorem State.unschedule_power (s : State) (c : CtxId) :
    (s.unschedule c).power = s.power := rfl

@[simp] theorem State.unschedule_intake (s : State) (c : CtxId) :
    (s.unschedule c).intake = s.intake := rfl

@[simp] theorem State.unschedule_ctxs (s : State) (c : CtxId) :
    (s.unschedule c).ctxs = s.ctxs := rfl

@[simp] theorem State.unschedule_waiting (s : State) (c : CtxId) :
    (s.unschedule c).waiting = s.waiting := rfl

@[simp] theorem State.unschedule_freeLines (s : State) (c : CtxId) :
    (s.unschedule c).freeLines = s.freeLines := rfl

@[simp] theorem State.unschedule_lines (s : State) (c : CtxId) :
    (s.unschedule c).lines = s.lines := rfl

@[simp] theorem State.unschedule_schedule (s : State) (c : CtxId) :
    (s.unschedule c).schedule = s.schedule.filter fun d => decide (d ≠ c) := rfl

@[simp] theorem State.unschedule_uptime (s : State) (c : CtxId) :
    (s.unschedule c).uptime = s.uptime := rfl

@[simp] theorem State.unschedule_uptimeMs (s : State) (c : CtxId) :
    (s.unschedule c).uptimeMs = s.uptimeMs := rfl

@[simp] theorem State.unschedule_retained (s : State) (c : CtxId) :
    (s.unschedule c).retained = s.retained := rfl

@[simp] theorem State.unschedule_meters (s : State) (c : CtxId) :
    (s.unschedule c).meters = s.meters := rfl

@[simp] theorem State.unschedule_report (s : State) (c : CtxId) :
    (s.unschedule c).report = s.report := rfl

@[simp] theorem State.unschedule_mem (s : State) (c : CtxId) :
    (s.unschedule c).mem = s.mem := rfl

@[simp] theorem State.unschedule_seed (s : State) (c : CtxId) :
    (s.unschedule c).seed = s.seed := rfl

@[simp] theorem State.unschedule_pending (s : State) (c : CtxId) :
    (s.unschedule c).pending = s.pending := rfl

/-! ## `queue` -/

@[simp] theorem State.queue_ctl (s : State) (b : EntryBody) (u : Bool) :
    (s.queue b u).ctl = s.ctl := rfl

@[simp] theorem State.queue_power (s : State) (b : EntryBody) (u : Bool) :
    (s.queue b u).power = s.power := rfl

@[simp] theorem State.queue_intake (s : State) (b : EntryBody) (u : Bool) :
    (s.queue b u).intake = s.intake := rfl

@[simp] theorem State.queue_ctxs (s : State) (b : EntryBody) (u : Bool) :
    (s.queue b u).ctxs = s.ctxs := rfl

@[simp] theorem State.queue_waiting (s : State) (b : EntryBody) (u : Bool) :
    (s.queue b u).waiting = s.waiting := rfl

@[simp] theorem State.queue_freeLines (s : State) (b : EntryBody) (u : Bool) :
    (s.queue b u).freeLines = s.freeLines := rfl

@[simp] theorem State.queue_lines (s : State) (b : EntryBody) (u : Bool) :
    (s.queue b u).lines = s.lines := rfl

@[simp] theorem State.queue_schedule (s : State) (b : EntryBody) (u : Bool) :
    (s.queue b u).schedule = s.schedule := rfl

@[simp] theorem State.queue_uptime (s : State) (b : EntryBody) (u : Bool) :
    (s.queue b u).uptime = s.uptime := rfl

@[simp] theorem State.queue_uptimeMs (s : State) (b : EntryBody) (u : Bool) :
    (s.queue b u).uptimeMs = s.uptimeMs := rfl

@[simp] theorem State.queue_retained (s : State) (b : EntryBody) (u : Bool) :
    (s.queue b u).retained = s.retained := rfl

@[simp] theorem State.queue_meters (s : State) (b : EntryBody) (u : Bool) :
    (s.queue b u).meters = s.meters := rfl

@[simp] theorem State.queue_report (s : State) (b : EntryBody) (u : Bool) :
    (s.queue b u).report = { s.report with outbox := s.report.outbox ++ [{ body := b, urgent := u }] } := rfl

@[simp] theorem State.queue_mem (s : State) (b : EntryBody) (u : Bool) :
    (s.queue b u).mem = s.mem := rfl

@[simp] theorem State.queue_seed (s : State) (b : EntryBody) (u : Bool) :
    (s.queue b u).seed = s.seed := rfl

@[simp] theorem State.queue_pending (s : State) (b : EntryBody) (u : Bool) :
    (s.queue b u).pending = s.pending := rfl

/-! ## `storeCells` -/

@[simp] theorem State.storeCells_ctl (s : State) (base : Word) (cells : List (Nat × Byte)) :
    (s.storeCells base cells).ctl = s.ctl := rfl

@[simp] theorem State.storeCells_power (s : State) (base : Word) (cells : List (Nat × Byte)) :
    (s.storeCells base cells).power = s.power := rfl

@[simp] theorem State.storeCells_intake (s : State) (base : Word) (cells : List (Nat × Byte)) :
    (s.storeCells base cells).intake = s.intake := rfl

@[simp] theorem State.storeCells_ctxs (s : State) (base : Word) (cells : List (Nat × Byte)) :
    (s.storeCells base cells).ctxs = s.ctxs := rfl

@[simp] theorem State.storeCells_waiting (s : State) (base : Word) (cells : List (Nat × Byte)) :
    (s.storeCells base cells).waiting = s.waiting := rfl

@[simp] theorem State.storeCells_freeLines (s : State) (base : Word) (cells : List (Nat × Byte)) :
    (s.storeCells base cells).freeLines = s.freeLines := rfl

@[simp] theorem State.storeCells_lines (s : State) (base : Word) (cells : List (Nat × Byte)) :
    (s.storeCells base cells).lines = s.lines := rfl

@[simp] theorem State.storeCells_schedule (s : State) (base : Word) (cells : List (Nat × Byte)) :
    (s.storeCells base cells).schedule = s.schedule := rfl

@[simp] theorem State.storeCells_uptime (s : State) (base : Word) (cells : List (Nat × Byte)) :
    (s.storeCells base cells).uptime = s.uptime := rfl

@[simp] theorem State.storeCells_uptimeMs (s : State) (base : Word) (cells : List (Nat × Byte)) :
    (s.storeCells base cells).uptimeMs = s.uptimeMs := rfl

@[simp] theorem State.storeCells_retained (s : State) (base : Word) (cells : List (Nat × Byte)) :
    (s.storeCells base cells).retained = s.retained := rfl

@[simp] theorem State.storeCells_meters (s : State) (base : Word) (cells : List (Nat × Byte)) :
    (s.storeCells base cells).meters = s.meters := rfl

@[simp] theorem State.storeCells_report (s : State) (base : Word) (cells : List (Nat × Byte)) :
    (s.storeCells base cells).report = s.report := rfl

@[simp] theorem State.storeCells_mem (s : State) (base : Word) (cells : List (Nat × Byte)) :
    (s.storeCells base cells).mem = Memory.writeCells base cells s.mem := rfl

@[simp] theorem State.storeCells_seed (s : State) (base : Word) (cells : List (Nat × Byte)) :
    (s.storeCells base cells).seed = s.seed := rfl

@[simp] theorem State.storeCells_pending (s : State) (base : Word) (cells : List (Nat × Byte)) :
    (s.storeCells base cells).pending = s.pending := rfl

/-! ## `hostStores` -/

@[simp] theorem State.hostStores_ctl (s : State) (stores : HostStores) :
    (s.hostStores stores).ctl = s.ctl := rfl

@[simp] theorem State.hostStores_power (s : State) (stores : HostStores) :
    (s.hostStores stores).power = s.power := rfl

@[simp] theorem State.hostStores_intake (s : State) (stores : HostStores) :
    (s.hostStores stores).intake = s.intake := rfl

@[simp] theorem State.hostStores_ctxs (s : State) (stores : HostStores) :
    (s.hostStores stores).ctxs = s.ctxs := rfl

@[simp] theorem State.hostStores_waiting (s : State) (stores : HostStores) :
    (s.hostStores stores).waiting = s.waiting := rfl

@[simp] theorem State.hostStores_freeLines (s : State) (stores : HostStores) :
    (s.hostStores stores).freeLines = s.freeLines := rfl

@[simp] theorem State.hostStores_lines (s : State) (stores : HostStores) :
    (s.hostStores stores).lines = s.lines := rfl

@[simp] theorem State.hostStores_schedule (s : State) (stores : HostStores) :
    (s.hostStores stores).schedule = s.schedule := rfl

@[simp] theorem State.hostStores_uptime (s : State) (stores : HostStores) :
    (s.hostStores stores).uptime = s.uptime := rfl

@[simp] theorem State.hostStores_uptimeMs (s : State) (stores : HostStores) :
    (s.hostStores stores).uptimeMs = s.uptimeMs := rfl

@[simp] theorem State.hostStores_retained (s : State) (stores : HostStores) :
    (s.hostStores stores).retained = s.retained := rfl

@[simp] theorem State.hostStores_meters (s : State) (stores : HostStores) :
    (s.hostStores stores).meters = s.meters := rfl

@[simp] theorem State.hostStores_report (s : State) (stores : HostStores) :
    (s.hostStores stores).report = s.report := rfl

@[simp] theorem State.hostStores_mem (s : State) (stores : HostStores) :
    (s.hostStores stores).mem = Memory.hostStores stores s.mem := rfl

@[simp] theorem State.hostStores_seed (s : State) (stores : HostStores) :
    (s.hostStores stores).seed = s.seed := rfl

@[simp] theorem State.hostStores_pending (s : State) (stores : HostStores) :
    (s.hostStores stores).pending = s.pending := rfl

/-! ## `setRing` and `modRing` -/

@[simp] theorem State.setRing_ctl (s : State) (r : OrderRing) (x : Ring) :
    (s.setRing r x).ctl = s.ctl := by cases r <;> rfl

@[simp] theorem State.modRing_ctl (s : State) (r : OrderRing) (f : Ring → Ring) :
    (s.modRing r f).ctl = s.ctl := by cases r <;> rfl

@[simp] theorem State.setRing_power (s : State) (r : OrderRing) (x : Ring) :
    (s.setRing r x).power = s.power := by cases r <;> rfl

@[simp] theorem State.modRing_power (s : State) (r : OrderRing) (f : Ring → Ring) :
    (s.modRing r f).power = s.power := by cases r <;> rfl

@[simp] theorem State.setRing_ctxs (s : State) (r : OrderRing) (x : Ring) :
    (s.setRing r x).ctxs = s.ctxs := by cases r <;> rfl

@[simp] theorem State.modRing_ctxs (s : State) (r : OrderRing) (f : Ring → Ring) :
    (s.modRing r f).ctxs = s.ctxs := by cases r <;> rfl

@[simp] theorem State.setRing_waiting (s : State) (r : OrderRing) (x : Ring) :
    (s.setRing r x).waiting = s.waiting := by cases r <;> rfl

@[simp] theorem State.modRing_waiting (s : State) (r : OrderRing) (f : Ring → Ring) :
    (s.modRing r f).waiting = s.waiting := by cases r <;> rfl

@[simp] theorem State.setRing_freeLines (s : State) (r : OrderRing) (x : Ring) :
    (s.setRing r x).freeLines = s.freeLines := by cases r <;> rfl

@[simp] theorem State.modRing_freeLines (s : State) (r : OrderRing) (f : Ring → Ring) :
    (s.modRing r f).freeLines = s.freeLines := by cases r <;> rfl

@[simp] theorem State.setRing_lines (s : State) (r : OrderRing) (x : Ring) :
    (s.setRing r x).lines = s.lines := by cases r <;> rfl

@[simp] theorem State.modRing_lines (s : State) (r : OrderRing) (f : Ring → Ring) :
    (s.modRing r f).lines = s.lines := by cases r <;> rfl

@[simp] theorem State.setRing_schedule (s : State) (r : OrderRing) (x : Ring) :
    (s.setRing r x).schedule = s.schedule := by cases r <;> rfl

@[simp] theorem State.modRing_schedule (s : State) (r : OrderRing) (f : Ring → Ring) :
    (s.modRing r f).schedule = s.schedule := by cases r <;> rfl

@[simp] theorem State.setRing_uptime (s : State) (r : OrderRing) (x : Ring) :
    (s.setRing r x).uptime = s.uptime := by cases r <;> rfl

@[simp] theorem State.modRing_uptime (s : State) (r : OrderRing) (f : Ring → Ring) :
    (s.modRing r f).uptime = s.uptime := by cases r <;> rfl

@[simp] theorem State.setRing_uptimeMs (s : State) (r : OrderRing) (x : Ring) :
    (s.setRing r x).uptimeMs = s.uptimeMs := by cases r <;> rfl

@[simp] theorem State.modRing_uptimeMs (s : State) (r : OrderRing) (f : Ring → Ring) :
    (s.modRing r f).uptimeMs = s.uptimeMs := by cases r <;> rfl

@[simp] theorem State.setRing_retained (s : State) (r : OrderRing) (x : Ring) :
    (s.setRing r x).retained = s.retained := by cases r <;> rfl

@[simp] theorem State.modRing_retained (s : State) (r : OrderRing) (f : Ring → Ring) :
    (s.modRing r f).retained = s.retained := by cases r <;> rfl

@[simp] theorem State.setRing_meters (s : State) (r : OrderRing) (x : Ring) :
    (s.setRing r x).meters = s.meters := by cases r <;> rfl

@[simp] theorem State.modRing_meters (s : State) (r : OrderRing) (f : Ring → Ring) :
    (s.modRing r f).meters = s.meters := by cases r <;> rfl

@[simp] theorem State.setRing_report (s : State) (r : OrderRing) (x : Ring) :
    (s.setRing r x).report = s.report := by cases r <;> rfl

@[simp] theorem State.modRing_report (s : State) (r : OrderRing) (f : Ring → Ring) :
    (s.modRing r f).report = s.report := by cases r <;> rfl

@[simp] theorem State.setRing_mem (s : State) (r : OrderRing) (x : Ring) :
    (s.setRing r x).mem = s.mem := by cases r <;> rfl

@[simp] theorem State.modRing_mem (s : State) (r : OrderRing) (f : Ring → Ring) :
    (s.modRing r f).mem = s.mem := by cases r <;> rfl

@[simp] theorem State.setRing_seed (s : State) (r : OrderRing) (x : Ring) :
    (s.setRing r x).seed = s.seed := by cases r <;> rfl

@[simp] theorem State.modRing_seed (s : State) (r : OrderRing) (f : Ring → Ring) :
    (s.modRing r f).seed = s.seed := by cases r <;> rfl

@[simp] theorem State.setRing_pending (s : State) (r : OrderRing) (x : Ring) :
    (s.setRing r x).pending = s.pending := by cases r <;> rfl

@[simp] theorem State.modRing_pending (s : State) (r : OrderRing) (f : Ring → Ring) :
    (s.modRing r f).pending = s.pending := by cases r <;> rfl

@[simp] theorem State.setRing_ring_same (s : State) (r : OrderRing) (x : Ring) : (s.setRing r x).ring r = x := by
  cases r <;> rfl

@[simp] theorem State.setRing_ring_other (s : State) (r q : OrderRing) (x : Ring) (h : q ≠ r) :
    (s.setRing r x).ring q = s.ring q := by
  cases r <;> cases q <;> first | rfl | exact absurd rfl h

@[simp] theorem State.modRing_ring_same (s : State) (r : OrderRing) (f : Ring → Ring) :
    (s.modRing r f).ring r = f (s.ring r) := by cases r <;> rfl

@[simp] theorem State.modRing_ring_other (s : State) (r q : OrderRing) (f : Ring → Ring) (h : q ≠ r) :
    (s.modRing r f).ring q = s.ring q := by
  cases r <;> cases q <;> first | rfl | exact absurd rfl h

@[simp] theorem State.setRing_streak (s : State) (r : OrderRing) (x : Ring) :
    (s.setRing r x).intake.streak = s.intake.streak := by cases r <;> rfl

@[simp] theorem State.modRing_streak (s : State) (r : OrderRing) (f : Ring → Ring) :
    (s.modRing r f).intake.streak = s.intake.streak := by cases r <;> rfl

@[simp] theorem State.setStreak_ring (s : State) (n : Nat) (r : OrderRing) : (s.setStreak n).ring r = s.ring r := by
  cases r <;> rfl

theorem otherRing_ne (r : OrderRing) : otherRing r ≠ r := by cases r <;> decide

@[simp] theorem otherRing_otherRing (r : OrderRing) : otherRing (otherRing r) = r := by cases r <;> rfl

/-! ## Access by number: it depends on one field of the state alone -/

theorem State.ctx_def (s : State) (c : CtxId) : s.ctx c = s.ctxs[c] := rfl

theorem State.line_def (s : State) (l : LineId) : s.line l = s.lines[l] := rfl

theorem State.meter_def (s : State) (l : LineId) : s.meter l = s.meters[l] := rfl

theorem State.account_def (s : State) (a : AccountId) : s.account a = s.retained.accounts[a] := rfl

theorem State.ctx_congr {s t : State} (h : t.ctxs = s.ctxs) (c : CtxId) : t.ctx c = s.ctx c := by
  simp only [State.ctx_def, h]

theorem State.line_congr {s t : State} (h : t.lines = s.lines) (l : LineId) : t.line l = s.line l := by
  simp only [State.line_def, h]

theorem State.meter_congr {s t : State} (h : t.meters = s.meters) (l : LineId) : t.meter l = s.meter l := by
  simp only [State.meter_def, h]

theorem State.account_congr {s t : State} (h : t.retained = s.retained) (a : AccountId) :
    t.account a = s.account a := by
  simp only [State.account_def, h]

theorem State.ring_congr {s t : State} (h : t.intake = s.intake) (r : OrderRing) : t.ring r = s.ring r := by
  cases r <;> simp only [State.ring, h]

@[simp] theorem State.modCtx_line (s : State) (c : CtxId) (f : Context → Context) (k : LineId) :
    (s.modCtx c f).line k = s.line k := rfl

@[simp] theorem State.modCtx_meter (s : State) (c : CtxId) (f : Context → Context) (k : LineId) :
    (s.modCtx c f).meter k = s.meter k := rfl

@[simp] theorem State.modCtx_account (s : State) (c : CtxId) (f : Context → Context) (m : AccountId) :
    (s.modCtx c f).account m = s.account m := rfl

@[simp] theorem State.modCtx_ring (s : State) (c : CtxId) (f : Context → Context) (q : OrderRing) :
    (s.modCtx c f).ring q = s.ring q := by cases q <;> rfl

@[simp] theorem State.modLine_ctx (s : State) (l : LineId) (f : Line → Line) (d : CtxId) :
    (s.modLine l f).ctx d = s.ctx d := rfl

@[simp] theorem State.modLine_meter (s : State) (l : LineId) (f : Line → Line) (k : LineId) :
    (s.modLine l f).meter k = s.meter k := rfl

@[simp] theorem State.modLine_account (s : State) (l : LineId) (f : Line → Line) (m : AccountId) :
    (s.modLine l f).account m = s.account m := rfl

@[simp] theorem State.modLine_ring (s : State) (l : LineId) (f : Line → Line) (q : OrderRing) :
    (s.modLine l f).ring q = s.ring q := by cases q <;> rfl

@[simp] theorem State.setMeter_ctx (s : State) (l : LineId) (e : Option MeterEntry) (d : CtxId) :
    (s.setMeter l e).ctx d = s.ctx d := rfl

@[simp] theorem State.setMeter_line (s : State) (l : LineId) (e : Option MeterEntry) (k : LineId) :
    (s.setMeter l e).line k = s.line k := rfl

@[simp] theorem State.setMeter_account (s : State) (l : LineId) (e : Option MeterEntry) (m : AccountId) :
    (s.setMeter l e).account m = s.account m := rfl

@[simp] theorem State.setMeter_ring (s : State) (l : LineId) (e : Option MeterEntry) (q : OrderRing) :
    (s.setMeter l e).ring q = s.ring q := by cases q <;> rfl

@[simp] theorem State.modRetained_ctx (s : State) (f : Retained → Retained) (d : CtxId) :
    (s.modRetained f).ctx d = s.ctx d := rfl

@[simp] theorem State.modRetained_line (s : State) (f : Retained → Retained) (k : LineId) :
    (s.modRetained f).line k = s.line k := rfl

@[simp] theorem State.modRetained_meter (s : State) (f : Retained → Retained) (k : LineId) :
    (s.modRetained f).meter k = s.meter k := rfl

@[simp] theorem State.modRetained_ring (s : State) (f : Retained → Retained) (q : OrderRing) :
    (s.modRetained f).ring q = s.ring q := by cases q <;> rfl

@[simp] theorem State.modAccount_ctx (s : State) (a : AccountId) (f : Account → Account) (d : CtxId) :
    (s.modAccount a f).ctx d = s.ctx d := rfl

@[simp] theorem State.modAccount_line (s : State) (a : AccountId) (f : Account → Account) (k : LineId) :
    (s.modAccount a f).line k = s.line k := rfl

@[simp] theorem State.modAccount_meter (s : State) (a : AccountId) (f : Account → Account) (k : LineId) :
    (s.modAccount a f).meter k = s.meter k := rfl

@[simp] theorem State.modAccount_ring (s : State) (a : AccountId) (f : Account → Account) (q : OrderRing) :
    (s.modAccount a f).ring q = s.ring q := by cases q <;> rfl

@[simp] theorem State.modCtl_ctx (s : State) (f : Control → Control) (d : CtxId) :
    (s.modCtl f).ctx d = s.ctx d := rfl

@[simp] theorem State.modCtl_line (s : State) (f : Control → Control) (k : LineId) :
    (s.modCtl f).line k = s.line k := rfl

@[simp] theorem State.modCtl_meter (s : State) (f : Control → Control) (k : LineId) :
    (s.modCtl f).meter k = s.meter k := rfl

@[simp] theorem State.modCtl_account (s : State) (f : Control → Control) (m : AccountId) :
    (s.modCtl f).account m = s.account m := rfl

@[simp] theorem State.modCtl_ring (s : State) (f : Control → Control) (q : OrderRing) :
    (s.modCtl f).ring q = s.ring q := by cases q <;> rfl

@[simp] theorem State.setError_ctx (s : State) (e : ErrorCode) (d : CtxId) :
    (s.setError e).ctx d = s.ctx d := rfl

@[simp] theorem State.setError_line (s : State) (e : ErrorCode) (k : LineId) :
    (s.setError e).line k = s.line k := rfl

@[simp] theorem State.setError_meter (s : State) (e : ErrorCode) (k : LineId) :
    (s.setError e).meter k = s.meter k := rfl

@[simp] theorem State.setError_account (s : State) (e : ErrorCode) (m : AccountId) :
    (s.setError e).account m = s.account m := rfl

@[simp] theorem State.setError_ring (s : State) (e : ErrorCode) (q : OrderRing) :
    (s.setError e).ring q = s.ring q := by cases q <;> rfl

@[simp] theorem State.setEngine_ctx (s : State) (e : EngineState) (d : CtxId) :
    (s.setEngine e).ctx d = s.ctx d := rfl

@[simp] theorem State.setEngine_line (s : State) (e : EngineState) (k : LineId) :
    (s.setEngine e).line k = s.line k := rfl

@[simp] theorem State.setEngine_meter (s : State) (e : EngineState) (k : LineId) :
    (s.setEngine e).meter k = s.meter k := rfl

@[simp] theorem State.setEngine_account (s : State) (e : EngineState) (m : AccountId) :
    (s.setEngine e).account m = s.account m := rfl

@[simp] theorem State.setEngine_ring (s : State) (e : EngineState) (q : OrderRing) :
    (s.setEngine e).ring q = s.ring q := by cases q <;> rfl

@[simp] theorem State.modReport_ctx (s : State) (f : ReportWriter → ReportWriter) (d : CtxId) :
    (s.modReport f).ctx d = s.ctx d := rfl

@[simp] theorem State.modReport_line (s : State) (f : ReportWriter → ReportWriter) (k : LineId) :
    (s.modReport f).line k = s.line k := rfl

@[simp] theorem State.modReport_meter (s : State) (f : ReportWriter → ReportWriter) (k : LineId) :
    (s.modReport f).meter k = s.meter k := rfl

@[simp] theorem State.modReport_account (s : State) (f : ReportWriter → ReportWriter) (m : AccountId) :
    (s.modReport f).account m = s.account m := rfl

@[simp] theorem State.modReport_ring (s : State) (f : ReportWriter → ReportWriter) (q : OrderRing) :
    (s.modReport f).ring q = s.ring q := by cases q <;> rfl

@[simp] theorem State.setStreak_ctx (s : State) (n : Nat) (d : CtxId) :
    (s.setStreak n).ctx d = s.ctx d := rfl

@[simp] theorem State.setStreak_line (s : State) (n : Nat) (k : LineId) :
    (s.setStreak n).line k = s.line k := rfl

@[simp] theorem State.setStreak_meter (s : State) (n : Nat) (k : LineId) :
    (s.setStreak n).meter k = s.meter k := rfl

@[simp] theorem State.setStreak_account (s : State) (n : Nat) (m : AccountId) :
    (s.setStreak n).account m = s.account m := rfl

@[simp] theorem State.setWaiting_ctx (s : State) (w : Waiting) (d : CtxId) :
    (s.setWaiting w).ctx d = s.ctx d := rfl

@[simp] theorem State.setWaiting_line (s : State) (w : Waiting) (k : LineId) :
    (s.setWaiting w).line k = s.line k := rfl

@[simp] theorem State.setWaiting_meter (s : State) (w : Waiting) (k : LineId) :
    (s.setWaiting w).meter k = s.meter k := rfl

@[simp] theorem State.setWaiting_account (s : State) (w : Waiting) (m : AccountId) :
    (s.setWaiting w).account m = s.account m := rfl

@[simp] theorem State.setWaiting_ring (s : State) (w : Waiting) (q : OrderRing) :
    (s.setWaiting w).ring q = s.ring q := by cases q <;> rfl

@[simp] theorem State.setFree_ctx (s : State) (ls : List LineId) (d : CtxId) :
    (s.setFree ls).ctx d = s.ctx d := rfl

@[simp] theorem State.setFree_line (s : State) (ls : List LineId) (k : LineId) :
    (s.setFree ls).line k = s.line k := rfl

@[simp] theorem State.setFree_meter (s : State) (ls : List LineId) (k : LineId) :
    (s.setFree ls).meter k = s.meter k := rfl

@[simp] theorem State.setFree_account (s : State) (ls : List LineId) (m : AccountId) :
    (s.setFree ls).account m = s.account m := rfl

@[simp] theorem State.setFree_ring (s : State) (ls : List LineId) (q : OrderRing) :
    (s.setFree ls).ring q = s.ring q := by cases q <;> rfl

@[simp] theorem State.joinFree_ctx (s : State) (l : LineId) (d : CtxId) :
    (s.joinFree l).ctx d = s.ctx d := rfl

@[simp] theorem State.joinFree_line (s : State) (l : LineId) (k : LineId) :
    (s.joinFree l).line k = s.line k := rfl

@[simp] theorem State.joinFree_meter (s : State) (l : LineId) (k : LineId) :
    (s.joinFree l).meter k = s.meter k := rfl

@[simp] theorem State.joinFree_account (s : State) (l : LineId) (m : AccountId) :
    (s.joinFree l).account m = s.account m := rfl

@[simp] theorem State.joinFree_ring (s : State) (l : LineId) (q : OrderRing) :
    (s.joinFree l).ring q = s.ring q := by cases q <;> rfl

@[simp] theorem State.leaveFree_ctx (s : State) (l : LineId) (d : CtxId) :
    (s.leaveFree l).ctx d = s.ctx d := rfl

@[simp] theorem State.leaveFree_line (s : State) (l : LineId) (k : LineId) :
    (s.leaveFree l).line k = s.line k := rfl

@[simp] theorem State.leaveFree_meter (s : State) (l : LineId) (k : LineId) :
    (s.leaveFree l).meter k = s.meter k := rfl

@[simp] theorem State.leaveFree_account (s : State) (l : LineId) (m : AccountId) :
    (s.leaveFree l).account m = s.account m := rfl

@[simp] theorem State.leaveFree_ring (s : State) (l : LineId) (q : OrderRing) :
    (s.leaveFree l).ring q = s.ring q := by cases q <;> rfl

@[simp] theorem State.setSchedule_ctx (s : State) (cs : List CtxId) (d : CtxId) :
    (s.setSchedule cs).ctx d = s.ctx d := rfl

@[simp] theorem State.setSchedule_line (s : State) (cs : List CtxId) (k : LineId) :
    (s.setSchedule cs).line k = s.line k := rfl

@[simp] theorem State.setSchedule_meter (s : State) (cs : List CtxId) (k : LineId) :
    (s.setSchedule cs).meter k = s.meter k := rfl

@[simp] theorem State.setSchedule_account (s : State) (cs : List CtxId) (m : AccountId) :
    (s.setSchedule cs).account m = s.account m := rfl

@[simp] theorem State.setSchedule_ring (s : State) (cs : List CtxId) (q : OrderRing) :
    (s.setSchedule cs).ring q = s.ring q := by cases q <;> rfl

@[simp] theorem State.unschedule_ctx (s : State) (c : CtxId) (d : CtxId) :
    (s.unschedule c).ctx d = s.ctx d := rfl

@[simp] theorem State.unschedule_line (s : State) (c : CtxId) (k : LineId) :
    (s.unschedule c).line k = s.line k := rfl

@[simp] theorem State.unschedule_meter (s : State) (c : CtxId) (k : LineId) :
    (s.unschedule c).meter k = s.meter k := rfl

@[simp] theorem State.unschedule_account (s : State) (c : CtxId) (m : AccountId) :
    (s.unschedule c).account m = s.account m := rfl

@[simp] theorem State.unschedule_ring (s : State) (c : CtxId) (q : OrderRing) :
    (s.unschedule c).ring q = s.ring q := by cases q <;> rfl

@[simp] theorem State.queue_ctx (s : State) (b : EntryBody) (u : Bool) (d : CtxId) :
    (s.queue b u).ctx d = s.ctx d := rfl

@[simp] theorem State.queue_line (s : State) (b : EntryBody) (u : Bool) (k : LineId) :
    (s.queue b u).line k = s.line k := rfl

@[simp] theorem State.queue_meter (s : State) (b : EntryBody) (u : Bool) (k : LineId) :
    (s.queue b u).meter k = s.meter k := rfl

@[simp] theorem State.queue_account (s : State) (b : EntryBody) (u : Bool) (m : AccountId) :
    (s.queue b u).account m = s.account m := rfl

@[simp] theorem State.queue_ring (s : State) (b : EntryBody) (u : Bool) (q : OrderRing) :
    (s.queue b u).ring q = s.ring q := by cases q <;> rfl

@[simp] theorem State.storeCells_ctx (s : State) (base : Word) (cells : List (Nat × Byte)) (d : CtxId) :
    (s.storeCells base cells).ctx d = s.ctx d := rfl

@[simp] theorem State.storeCells_line (s : State) (base : Word) (cells : List (Nat × Byte)) (k : LineId) :
    (s.storeCells base cells).line k = s.line k := rfl

@[simp] theorem State.storeCells_meter (s : State) (base : Word) (cells : List (Nat × Byte)) (k : LineId) :
    (s.storeCells base cells).meter k = s.meter k := rfl

@[simp] theorem State.storeCells_account (s : State) (base : Word) (cells : List (Nat × Byte)) (m : AccountId) :
    (s.storeCells base cells).account m = s.account m := rfl

@[simp] theorem State.storeCells_ring (s : State) (base : Word) (cells : List (Nat × Byte)) (q : OrderRing) :
    (s.storeCells base cells).ring q = s.ring q := by cases q <;> rfl

@[simp] theorem State.hostStores_ctx (s : State) (stores : HostStores) (d : CtxId) :
    (s.hostStores stores).ctx d = s.ctx d := rfl

@[simp] theorem State.hostStores_line (s : State) (stores : HostStores) (k : LineId) :
    (s.hostStores stores).line k = s.line k := rfl

@[simp] theorem State.hostStores_meter (s : State) (stores : HostStores) (k : LineId) :
    (s.hostStores stores).meter k = s.meter k := rfl

@[simp] theorem State.hostStores_account (s : State) (stores : HostStores) (m : AccountId) :
    (s.hostStores stores).account m = s.account m := rfl

@[simp] theorem State.hostStores_ring (s : State) (stores : HostStores) (q : OrderRing) :
    (s.hostStores stores).ring q = s.ring q := by cases q <;> rfl

@[simp] theorem State.setRing_ctx (s : State) (r : OrderRing) (x : Ring) (d : CtxId) :
    (s.setRing r x).ctx d = s.ctx d := by cases r <;> rfl

@[simp] theorem State.setRing_line (s : State) (r : OrderRing) (x : Ring) (k : LineId) :
    (s.setRing r x).line k = s.line k := by cases r <;> rfl

@[simp] theorem State.setRing_meter (s : State) (r : OrderRing) (x : Ring) (k : LineId) :
    (s.setRing r x).meter k = s.meter k := by cases r <;> rfl

@[simp] theorem State.setRing_account (s : State) (r : OrderRing) (x : Ring) (m : AccountId) :
    (s.setRing r x).account m = s.account m := by cases r <;> rfl

@[simp] theorem State.modRing_ctx (s : State) (r : OrderRing) (f : Ring → Ring) (d : CtxId) :
    (s.modRing r f).ctx d = s.ctx d := by cases r <;> rfl

@[simp] theorem State.modRing_line (s : State) (r : OrderRing) (f : Ring → Ring) (k : LineId) :
    (s.modRing r f).line k = s.line k := by cases r <;> rfl

@[simp] theorem State.modRing_meter (s : State) (r : OrderRing) (f : Ring → Ring) (k : LineId) :
    (s.modRing r f).meter k = s.meter k := by cases r <;> rfl

@[simp] theorem State.modRing_account (s : State) (r : OrderRing) (f : Ring → Ring) (m : AccountId) :
    (s.modRing r f).account m = s.account m := by cases r <;> rfl

/-! ## What is read after a change by number -/

@[simp] theorem State.modCtx_ctx_same (s : State) (c : CtxId) (f : Context → Context) :
    (s.modCtx c f).ctx c = f (s.ctx c) := by
  simp [State.ctx, State.modCtx]

theorem State.modCtx_ctx_other (s : State) (c d : CtxId) (f : Context → Context) (h : d ≠ c) :
    (s.modCtx c f).ctx d = s.ctx d := by
  have hv : c.val ≠ d.val := fun e => h (Fin.ext e.symm)
  simp [State.ctx, State.modCtx, Vector.getElem_set_ne, hv]

theorem State.modCtx_ctx (s : State) (c d : CtxId) (f : Context → Context) :
    (s.modCtx c f).ctx d = if d = c then f (s.ctx c) else s.ctx d := by
  by_cases h : d = c
  · subst h; simp
  · simp [h, State.modCtx_ctx_other]

@[simp] theorem State.modLine_line_same (s : State) (l : LineId) (f : Line → Line) :
    (s.modLine l f).line l = f (s.line l) := by
  simp [State.line, State.modLine]

theorem State.modLine_line_other (s : State) (l k : LineId) (f : Line → Line) (h : k ≠ l) :
    (s.modLine l f).line k = s.line k := by
  have hv : l.val ≠ k.val := fun e => h (Fin.ext e.symm)
  simp [State.line, State.modLine, Vector.getElem_set_ne, hv]

theorem State.modLine_line (s : State) (l k : LineId) (f : Line → Line) :
    (s.modLine l f).line k = if k = l then f (s.line l) else s.line k := by
  by_cases h : k = l
  · subst h; simp
  · simp [h, State.modLine_line_other]

@[simp] theorem State.setMeter_meter_same (s : State) (l : LineId) (e : Option MeterEntry) :
    (s.setMeter l e).meter l = e := by
  simp [State.meter, State.setMeter]

theorem State.setMeter_meter_other (s : State) (l k : LineId) (e : Option MeterEntry) (h : k ≠ l) :
    (s.setMeter l e).meter k = s.meter k := by
  have hv : l.val ≠ k.val := fun e => h (Fin.ext e.symm)
  simp [State.meter, State.setMeter, Vector.getElem_set_ne, hv]

@[simp] theorem State.modAccount_account_same (s : State) (a : AccountId) (f : Account → Account) :
    (s.modAccount a f).account a = f (s.account a) := by
  simp [State.account, State.modAccount, State.modRetained, Retained.modAccount, Retained.setAccounts]

theorem State.modAccount_account_other (s : State) (a b : AccountId) (f : Account → Account) (h : b ≠ a) :
    (s.modAccount a f).account b = s.account b := by
  have hv : a.val ≠ b.val := fun e => h (Fin.ext e.symm)
  simp [State.account, State.modAccount, State.modRetained, Retained.modAccount, Retained.setAccounts,
    Vector.getElem_set_ne, hv]

theorem State.modAccount_account (s : State) (a b : AccountId) (f : Account → Account) :
    (s.modAccount a f).account b = if b = a then f (s.account a) else s.account b := by
  by_cases h : b = a
  · subst h; simp
  · simp [h, State.modAccount_account_other]

/-! ## Contexts and lines after a map over all lines -/

@[simp] theorem State.map_lines_line (s : State) (f : Line → Line) (l : LineId) :
    ({ s with lines := s.lines.map f } : State).line l = f (s.line l) := by
  simp [State.line]

end Sys2Proof.Machine
end

