-- ==== Sys2Proof/Laws/Frames.lean ====
section
/-! SUPPORT. What the shared operations on calls and lines never touch: the control block, the supplies, intake, the clocks,
shared memory and the model's own fields. -/

namespace Sys2Proof.Machine

@[refl] theorem State.Keeps.refl (s : State) : s.Keeps s := ⟨rfl, rfl, rfl, rfl, rfl, rfl, rfl, rfl⟩

theorem State.Keeps.trans {s t u : State} (h : s.Keeps t) (k : t.Keeps u) : s.Keeps u :=
  ⟨k.ctl.trans h.ctl, k.power.trans h.power, k.intake.trans h.intake, k.uptime.trans h.uptime,
    k.uptimeMs.trans h.uptimeMs, k.mem.trans h.mem, k.seed.trans h.seed, k.pending.trans h.pending⟩

theorem State.modCtx_keeps (s : State) (c : CtxId) (f : Context → Context) : s.Keeps (s.modCtx c f) :=
  ⟨rfl, rfl, rfl, rfl, rfl, rfl, rfl, rfl⟩

theorem State.modLine_keeps (s : State) (l : LineId) (f : Line → Line) : s.Keeps (s.modLine l f) :=
  ⟨rfl, rfl, rfl, rfl, rfl, rfl, rfl, rfl⟩

theorem State.setMeter_keeps (s : State) (l : LineId) (e : Option MeterEntry) : s.Keeps (s.setMeter l e) :=
  ⟨rfl, rfl, rfl, rfl, rfl, rfl, rfl, rfl⟩

theorem State.modRetained_keeps (s : State) (f : Retained → Retained) : s.Keeps (s.modRetained f) :=
  ⟨rfl, rfl, rfl, rfl, rfl, rfl, rfl, rfl⟩

theorem State.modAccount_keeps (s : State) (a : AccountId) (f : Account → Account) : s.Keeps (s.modAccount a f) :=
  ⟨rfl, rfl, rfl, rfl, rfl, rfl, rfl, rfl⟩

theorem State.modReport_keeps (s : State) (f : ReportWriter → ReportWriter) : s.Keeps (s.modReport f) :=
  ⟨rfl, rfl, rfl, rfl, rfl, rfl, rfl, rfl⟩

theorem State.setWaiting_keeps (s : State) (w : Waiting) : s.Keeps (s.setWaiting w) :=
  ⟨rfl, rfl, rfl, rfl, rfl, rfl, rfl, rfl⟩

theorem State.setFree_keeps (s : State) (ls : List LineId) : s.Keeps (s.setFree ls) :=
  ⟨rfl, rfl, rfl, rfl, rfl, rfl, rfl, rfl⟩

theorem State.joinFree_keeps (s : State) (l : LineId) : s.Keeps (s.joinFree l) :=
  ⟨rfl, rfl, rfl, rfl, rfl, rfl, rfl, rfl⟩

theorem State.leaveFree_keeps (s : State) (l : LineId) : s.Keeps (s.leaveFree l) :=
  ⟨rfl, rfl, rfl, rfl, rfl, rfl, rfl, rfl⟩

theorem State.setSchedule_keeps (s : State) (cs : List CtxId) : s.Keeps (s.setSchedule cs) :=
  ⟨rfl, rfl, rfl, rfl, rfl, rfl, rfl, rfl⟩

theorem State.unschedule_keeps (s : State) (c : CtxId) : s.Keeps (s.unschedule c) :=
  ⟨rfl, rfl, rfl, rfl, rfl, rfl, rfl, rfl⟩

theorem State.queue_keeps (s : State) (b : EntryBody) (u : Bool) : s.Keeps (s.queue b u) :=
  ⟨rfl, rfl, rfl, rfl, rfl, rfl, rfl, rfl⟩

theorem State.queueDone_keeps (s : State) (tag : Half) (kind : Byte) (status : DoneStatus)
    (data : Option (AccountId × Account)) (urgent : Bool) : s.Keeps (s.queueDone tag kind status data urgent) :=
  s.queue_keeps _ _

theorem State.queueProgress_keeps (s : State) (c : CtxId) (l : LineId) (k : ProgressKind) :
    s.Keeps (s.queueProgress c l k) := by
  unfold State.queueProgress; split
  · exact s.queue_keeps _ _
  · exact s.modCtx_keeps _ _

theorem State.queueProgressIfAsked_keeps (s : State) (c : CtxId) (l : LineId) (k : ProgressKind) :
    s.Keeps (s.queueProgressIfAsked c l k) := by
  unfold State.queueProgressIfAsked; split
  · exact s.queueProgress_keeps _ _ _
  · exact .refl s

theorem State.queueUnsolicited_keeps (s : State) (k : UnsolicitedKind) : s.Keeps (s.queueUnsolicited k) := by
  unfold State.queueUnsolicited; split
  · exact s.queue_keeps _ _
  · exact s.modReport_keeps _

theorem State.clearLine_keeps (s : State) (l : LineId) : s.Keeps (s.clearLine l) := by
  unfold State.clearLine; split
  · exact (s.modLine_keeps _ _).trans (State.setMeter_keeps _ _ _)
  · exact .refl s

theorem State.leavePlace_keeps (s : State) (c : CtxId) (o : CallOutcome) : s.Keeps (s.leavePlace c o) := by
  unfold State.leavePlace; split
  · exact s.setWaiting_keeps _
  · exact s.unschedule_keeps _
  · split
    · exact (s.clearLine_keeps _).trans (State.modCtx_keeps _ _ _)
    · exact .refl s
  · exact .refl s
  · exact .refl s

theorem State.bookkeeping_keeps (s : State) (c : CtxId) : s.Keeps (s.bookkeeping c) := by
  unfold State.bookkeeping; split
  · split
    · exact s.modAccount_keeps _ _
    · exact .refl s
  · exact .refl s

theorem State.endContext_keeps (s : State) (c : CtxId) (o : CallOutcome) : s.Keeps (s.endContext c o) := by
  unfold State.endContext
  exact ((((s.leavePlace_keeps c o).trans (State.modCtx_keeps _ _ _)).trans (State.bookkeeping_keeps _ _)).trans
    (State.modCtx_keeps _ _ _)).trans (State.queue_keeps _ _ _)

theorem State.enterRetryWait_keeps (s : State) (c : CtxId) (l : LineId) (o : CallOutcome) :
    s.Keeps (s.enterRetryWait c l o) := by
  unfold State.enterRetryWait
  exact ((s.modCtx_keeps _ _).trans (State.setSchedule_keeps _ _)).trans (State.queueProgressIfAsked_keeps _ _ _ _)

theorem State.judgeFailure_keeps (s : State) (c : CtxId) (l : LineId) (o : CallOutcome) :
    s.Keeps (s.judgeFailure c l o) := by
  unfold State.judgeFailure; split
  · split
    · exact s.endContext_keeps _ _
    · split
      · exact s.endContext_keeps _ _
      · exact s.enterRetryWait_keeps _ _ _
  · exact s.endContext_keeps _ _

theorem State.detach_keeps (s : State) (c : CtxId) (o : CallOutcome) : s.Keeps (s.detach c o) := s.modCtx_keeps _ _

theorem State.endOnLine_keeps (s : State) (l : LineId) (o : CallOutcome) : s.Keeps (s.endOnLine l o) := by
  unfold State.endOnLine; split
  · dsimp only; split
    · split
      · exact ((s.clearLine_keeps _).trans (State.detach_keeps _ _ _)).trans (State.judgeFailure_keeps _ _ _ _)
      · exact ((s.clearLine_keeps _).trans (State.detach_keeps _ _ _)).trans (State.endContext_keeps _ _ _)
    · exact s.clearLine_keeps _
  · exact s.clearLine_keeps _

theorem State.faultLine_keeps (s : State) (l : LineId) : s.Keeps (s.faultLine l) := by
  unfold State.faultLine
  have h : s.Keeps ((s.modLine l Line.toFault).setMeter l none) :=
    (s.modLine_keeps _ _).trans (State.setMeter_keeps _ _ _)
  refine State.Keeps.trans ?_ (State.queueUnsolicited_keeps _ _)
  split
  · split
    · exact (h.trans (State.detach_keeps _ _ _)).trans (State.endContext_keeps _ _ _)
    · exact h
  · exact h

theorem State.charge_keeps {s t : State} {a : AccountId} {c : CtxId} {n : Nat} (h : s.charge a c n = some t) :
    s.Keeps t := by
  unfold State.charge at h; split at h
  · cases h; exact (s.modAccount_keeps _ _).trans (State.modCtx_keeps _ _ _)
  · cases h

theorem State.judgeWarning_keeps (s : State) (l : LineId) (e : MeterEntry) : s.Keeps (s.judgeWarning l e) := by
  unfold State.judgeWarning; split
  · exact (s.setMeter_keeps _ _).trans (State.queueProgress_keeps _ _ _ _)
  · exact .refl s

theorem State.startUnit_keeps (s : State) (l : LineId) (e : MeterEntry) (n : Nat) (p : UnitPrice) :
    s.Keeps (s.startUnit l e n p) := by
  unfold State.startUnit
  exact ((s.setMeter_keeps _ _).trans (State.modCtx_keeps _ _ _)).trans (State.judgeWarning_keeps _ _ _)

theorem State.meterAnswer_keeps (s : State) (l : LineId) (c : CtxId) : s.Keeps (s.meterAnswer l c) := by
  unfold State.meterAnswer
  split
  · exact .refl s
  · dsimp only
    split
    · exact ((s.setMeter_keeps _ _).trans (State.modAccount_keeps _ _ _)).trans (State.endOnLine_keeps _ _ _)
    · rename_i h2
      have k2 := ((s.setMeter_keeps _ _).trans (State.modAccount_keeps _ _ _)).trans (State.charge_keeps h2)
      split
      · exact k2.trans (State.endOnLine_keeps _ _ _)
      · rename_i h3
        exact (k2.trans (State.charge_keeps h3)).trans (State.startUnit_keeps _ _ _ _ _)

theorem State.unitStarts_keeps (s : State) (l : LineId) : s.Keeps (s.unitStarts l) := by
  unfold State.unitStarts; split
  · exact .refl s
  · dsimp only; split
    · exact s.endOnLine_keeps _ _
    · rename_i h
      exact (State.charge_keeps h).trans (State.startUnit_keeps _ _ _ _ _)

theorem State.answer_keeps (s : State) (l : LineId) : s.Keeps (s.answer l) := by
  unfold State.answer; split
  · exact .refl s
  · exact (((s.modLine_keeps _ _).trans (State.modCtx_keeps _ _ _)).trans
      (State.queueProgressIfAsked_keeps _ _ _ _)).trans (State.meterAnswer_keeps _ _ _)

theorem State.connectedInEntry_keeps (s : State) (l : LineId) : s.Keeps (s.connectedInEntry l) := by
  unfold State.connectedInEntry; split
  · exact .refl s
  · exact ((s.modLine_keeps _ _).trans (State.modCtx_keeps _ _ _)).trans (State.queueProgressIfAsked_keeps _ _ _ _)

theorem State.awaitAnswerEntry_keeps (s : State) (l : LineId) (c : CtxId) : s.Keeps (s.awaitAnswerEntry l c) := by
  unfold State.awaitAnswerEntry; dsimp only; split
  · exact (s.modLine_keeps _ _).trans (State.answer_keeps _ _)
  · exact s.modLine_keeps _ _

theorem State.beginSymbol_keeps (s : State) (l : LineId) (c : CtxId) (pos : Nat) : s.Keeps (s.beginSymbol l c pos) := by
  unfold State.beginSymbol; split
  · exact s.modLine_keeps _ _
  · exact s.modLine_keeps _ _
  · exact s.modLine_keeps _ _
  · exact s.awaitAnswerEntry_keeps _ _

theorem State.finishSymbol_keeps (s : State) (l : LineId) : s.Keeps (s.finishSymbol l) := by
  unfold State.finishSymbol; split
  · split
    · exact s.beginSymbol_keeps _ _ _
    · exact .refl s
  · exact .refl s

theorem State.enterDialing_keeps (s : State) (l : LineId) (c : CtxId) : s.Keeps (s.enterDialing l c) :=
  (s.modLine_keeps _ _).trans (State.beginSymbol_keeps _ _ _ _)

theorem State.loopWaitEnd_keeps (s : State) (l : LineId) (c : CtxId) : s.Keeps (s.loopWaitEnd l c) := by
  unfold State.loopWaitEnd; split
  · exact s.modLine_keeps _ _
  · exact (s.modLine_keeps _ _).trans (State.enterDialing_keeps _ _ _)

theorem State.seizeEntry_keeps (s : State) (l : LineId) (c : CtxId) : s.Keeps (s.seizeEntry l c).1 := by
  unfold State.seizeEntry; split
  · exact s.loopWaitEnd_keeps _ _
  · exact s.faultLine_keeps _
  · exact .refl s
  · exact .refl s

theorem State.dialToneHeard_keeps (s : State) (l : LineId) : s.Keeps (s.dialToneHeard l) := by
  unfold State.dialToneHeard; split
  · exact .refl s
  · dsimp only; split
    · exact (s.modLine_keeps _ _).trans (State.enterDialing_keeps _ _ _)
    · exact (s.modLine_keeps _ _).trans (State.finishSymbol_keeps _ _)

theorem State.digitTimerOut_keeps (s : State) (l : LineId) : s.Keeps (s.digitTimerOut l) := by
  unfold State.digitTimerOut; split
  · exact s.modLine_keeps _ _
  · exact (s.modLine_keeps _ _).trans (State.finishSymbol_keeps _ _)

theorem State.grant_keeps (s : State) (c : CtxId) (l : LineId) : s.Keeps (s.grant c l) := by
  unfold State.grant
  exact ((((s.setWaiting_keeps _).trans (State.leaveFree_keeps _ _)).trans (State.modCtx_keeps _ _ _)).trans
    (State.modLine_keeps _ _ _)).trans (State.queueProgressIfAsked_keeps _ _ _ _)

theorem State.passLoop_keeps (n : Nat) (s : State) : s.Keeps (State.passLoop n s).1 := by
  induction n generalizing s with
  | zero => exact .refl s
  | succ n ih =>
    unfold State.passLoop; split
    · exact .refl s
    · split
      · exact (s.endContext_keeps _ _).trans (ih _)
      · exact ((s.grant_keeps _ _).trans (State.seizeEntry_keeps _ _ _)).trans (ih _)

theorem State.sweepOne_keeps (s : State) (c : CtxId) : s.Keeps (s.sweepOne c) := by
  unfold State.sweepOne; split
  · exact .refl s
  · exact s.endContext_keeps _ _

theorem State.sweep_keeps (s : State) : s.Keeps s.sweep := by
  unfold State.sweep
  generalize s.waiting.all = cs
  induction cs generalizing s with
  | nil => exact .refl s
  | cons c cs ih => exact (s.sweepOne_keeps c).trans (ih _)

theorem State.pass_keeps (s : State) : s.Keeps s.pass := by
  unfold State.pass; split
  · have h := State.passLoop_keeps s.waiting.all.length s
    split
    · rename_i h1; rw [h1] at h; exact h
    · rename_i h1; rw [h1] at h
      exact (h.trans (State.sweep_keeps _)).trans (State.passLoop_keeps _ _)
  · exact .refl s

theorem State.faultAndSweep_keeps (s : State) (l : LineId) : s.Keeps (s.faultAndSweep l) :=
  ((s.faultLine_keeps l).trans (State.sweep_keeps _)).trans (State.pass_keeps _)

theorem State.lineRests_keeps (s : State) (l : LineId) : s.Keeps (s.lineRests l) := by
  unfold State.lineRests; split
  · exact (s.modLine_keeps _ _).trans (State.sweep_keeps _)
  · exact (s.modLine_keeps _ _).trans (State.joinFree_keeps _ _)

theorem State.glareReturn_keeps (s : State) (c : CtxId) : s.Keeps (s.glareReturn c) := by
  unfold State.glareReturn; dsimp only; split
  · exact (s.modCtx_keeps _ _).trans (State.endContext_keeps _ _ _)
  · exact ((s.modCtx_keeps _ _).trans (State.modCtx_keeps _ _ _)).trans (State.setWaiting_keeps _ _)

theorem State.glare_keeps (s : State) (l : LineId) : s.Keeps (s.glare l) := by
  unfold State.glare
  refine State.Keeps.trans ?_ (State.pass_keeps _)
  have h := s.modLine_keeps l Line.toGlare
  have h2 : s.Keeps (match (s.line l).held with
      | some c => if (s.ctx c).state = .onLine then (s.modLine l Line.toGlare).glareReturn c else s.modLine l Line.toGlare
      | none => s.modLine l Line.toGlare) := by
    split
    · split
      · exact h.trans (State.glareReturn_keeps _ _)
      · exact h
    · exact h
  split
  · exact (h2.trans (State.queueUnsolicited_keeps _ _)).trans (State.modLine_keeps _ _ _)
  · exact h2

theorem State.ringIn_keeps (s : State) (l : LineId) : s.Keeps (s.ringIn l) := by
  unfold State.ringIn
  exact ((((s.leaveFree_keeps _).trans (State.modLine_keeps _ _ _)).trans (State.queueUnsolicited_keeps _ _)).trans
    (State.modLine_keeps _ _ _)).trans (State.pass_keeps _)

theorem State.answerLine_keeps (s : State) (l : LineId) (c : CtxId) : s.Keeps (s.answerLine l c) := by
  unfold State.answerLine; dsimp only; split
  · exact (s.modLine_keeps _ _).trans (State.connectedInEntry_keeps _ _)
  · exact (s.modLine_keeps _ _).trans (State.faultAndSweep_keeps _ _)
  · exact s.modLine_keeps _ _
  · exact s.modLine_keeps _ _

theorem State.joinWaiting_keeps (s : State) (c : CtxId) (r : OrderRing) : s.Keeps (s.joinWaiting c r) :=
  ((s.modCtx_keeps _ _).trans (State.setWaiting_keeps _ _)).trans (State.pass_keeps _)

theorem State.actPlaceCall_keeps (s : State) (r : OrderRing) (rec : PlaceCallRec) : s.Keeps (s.actPlaceCall r rec) := by
  unfold State.actPlaceCall; split
  · exact .refl s
  · dsimp only; split
    · exact (s.modCtx_keeps _ _).trans (State.endContext_keeps _ _ _)
    · exact (s.modCtx_keeps _ _).trans (State.joinWaiting_keeps _ _ _)

theorem State.actAccept_keeps (s : State) (r : OrderRing) (rec : AcceptRec) : s.Keeps (s.actAccept r rec) := by
  unfold State.actAccept; split
  · exact .refl s
  · dsimp only; split
    · exact (s.modCtx_keeps _ _).trans (State.endContext_keeps _ _ _)
    · exact ((s.modCtx_keeps _ _).trans (State.modCtx_keeps _ _ _)).trans (State.answerLine_keeps _ _ _)

theorem State.actCancel_keeps (s : State) (rec : TargetRec) : s.Keeps (s.actCancel rec) := by
  unfold State.actCancel; dsimp only; split
  · split
    · exact ((s.queueDone_keeps _ _ _ _ _).trans (State.endContext_keeps _ _ _)).trans (State.pass_keeps _)
    · exact (s.queueDone_keeps _ _ _ _ _).trans (State.endContext_keeps _ _ _)
  · exact s.queueDone_keeps _ _ _ _ _

theorem State.actRelease_keeps (s : State) (rec : TargetRec) : s.Keeps (s.actRelease rec) := by
  unfold State.actRelease; dsimp only; split
  · split
    · exact (s.queueDone_keeps _ _ _ _ _).trans (State.endContext_keeps _ _ _)
    · exact s.queueDone_keeps _ _ _ _ _
  · exact s.queueDone_keeps _ _ _ _ _

theorem State.actSetLine_keeps (s : State) (rec : SetLineRec) : s.Keeps (s.actSetLine rec) := by
  unfold State.actSetLine; split
  · exact s.queueDone_keeps _ _ _ _ _
  · dsimp only; split
    · exact (s.modLine_keeps _ _).trans (State.queueDone_keeps _ _ _ _ _ _)
    · exact (((((s.modLine_keeps _ _).trans (State.modLine_keeps _ _ _)).trans (State.leaveFree_keeps _ _)).trans
        (State.queueDone_keeps _ _ _ _ _ _)).trans (State.sweep_keeps _)).trans (State.pass_keeps _)
    · exact ((((s.modLine_keeps _ _).trans (State.modLine_keeps _ _ _)).trans (State.joinFree_keeps _ _)).trans
        (State.queueDone_keeps _ _ _ _ _ _)).trans (State.pass_keeps _)
    · exact ((s.modLine_keeps _ _).trans (State.modLine_keeps _ _ _)).trans (State.queueDone_keeps _ _ _ _ _ _)

theorem State.answerConfig_keeps (s : State) (tag : Half) (kind : Byte) (f : Option (Retained → Retained)) :
    s.Keeps (s.answerConfig tag kind f) := by
  unfold State.answerConfig; split
  · exact s.queueDone_keeps _ _ _ _ _
  · exact (s.modRetained_keeps _).trans (State.queueDone_keeps _ _ _ _ _ _)

theorem State.actAccount_keeps (s : State) (tag : Half) (a : AccountId) (f : Account → Account) :
    s.Keeps (s.actAccount tag a f) :=
  (s.modAccount_keeps _ _).trans (State.queueDone_keeps _ _ _ _ _ _)

theorem State.handOn_keeps (s : State) (c : CtxId) : s.Keeps (s.handOn c) := by
  unfold State.handOn; dsimp only; split
  · exact ((s.unschedule_keeps _).trans (State.modCtx_keeps _ _ _)).trans
      (((State.modCtx_keeps _ _ _).trans (State.setWaiting_keeps _ _)).trans (State.pass_keeps _))
  · exact ((s.unschedule_keeps _).trans (State.modCtx_keeps _ _ _)).trans (State.endContext_keeps _ _ _)

theorem State.dueLoop_keeps (n : Nat) (s : State) : s.Keeps (State.dueLoop n s) := by
  induction n generalizing s with
  | zero => exact .refl s
  | succ n ih =>
    unfold State.dueLoop; split
    · exact .refl s
    · exact (s.handOn_keeps _).trans (ih _)

theorem State.endEach_keeps (s : State) (which : CtxState → Bool) (o : CallOutcome) : s.Keeps (s.endEach which o) := by
  unfold State.endEach
  generalize allContexts = cs
  induction cs generalizing s with
  | nil => exact .refl s
  | cons c cs ih =>
    simp only [List.foldl_cons]
    refine State.Keeps.trans ?_ (ih _)
    split
    · exact s.endContext_keeps _ _
    · exact .refl s

theorem State.patternChanged_keeps (s : State) (l : LineId) (p : LoopPattern) : s.Keeps (s.patternChanged l p) := by
  unfold State.patternChanged; dsimp only; split
  · exact s.faultAndSweep_keeps _
  · split
    · split
      · split
        · exact s.loopWaitEnd_keeps _ _
        · exact .refl s
      · exact .refl s
    · split
      · exact s.answer_keeps _
      · exact .refl s
    · exact s.modLine_keeps _ _
    · exact s.modLine_keeps _ _
    · split
      · exact s.connectedInEntry_keeps _
      · exact .refl s
    all_goals exact .refl s

theorem State.ringArrives_keeps (s : State) (l : LineId) : s.Keeps (s.ringArrives l) := by
  unfold State.ringArrives; split
  · exact s.glare_keeps _
  · exact s.modLine_keeps _ _
  · split
    · exact s.ringIn_keeps _
    · exact .refl s
  · split
    · exact s.ringIn_keeps _
    · exact .refl s
  all_goals exact .refl s

theorem State.classTaken_keeps (s : State) (l : LineId) (cls : ToneClass) : s.Keeps (s.classTaken l cls) := by
  unfold State.classTaken; dsimp only; split
  · split
    · exact s.dialToneHeard_keeps _
    · exact .refl s
  · split
    · exact s.dialToneHeard_keeps _
    · exact .refl s
  · split
    · unfold State.ringingHeard; split
      · exact s.queueProgressIfAsked_keeps _ _ _
      · exact .refl s
    · exact s.endOnLine_keeps _ _
    · exact s.endOnLine_keeps _ _
    all_goals exact .refl s
  all_goals exact .refl s

end Sys2Proof.Machine
end

