-- ==== Sys2Proof/Laws/Ending.lean ====
section
/-! SUPPORT. What the ending step of a context (R11), the clearing of a line (R73, R74) and the ending step of a line (R73)
do to each piece of state. -/

namespace Sys2Proof.Machine

/-! ## The clearing of a line -/

theorem State.clearLine_line (s : State) (l k : LineId) :
    (s.clearLine l).line k = if k = l ∧ (s.line l).state.offHook = true then (s.line l).toClearing else s.line k := by
  unfold State.clearLine
  by_cases h : (s.line l).state.offHook = true
  · by_cases hk : k = l
    · subst hk; simp [h]
    · simp [h, hk, State.modLine_line_other _ _ _ _ hk]
  · simp [h]

theorem State.clearLine_meter (s : State) (l k : LineId) :
    (s.clearLine l).meter k = if k = l ∧ (s.line l).state.offHook = true then none else s.meter k := by
  unfold State.clearLine
  by_cases h : (s.line l).state.offHook = true
  · by_cases hk : k = l
    · subst hk; simp [h]
    · simp [h, hk, State.setMeter_meter_other _ _ _ _ hk]
  · simp [h]

@[simp] theorem State.clearLine_ctxs (s : State) (l : LineId) : (s.clearLine l).ctxs = s.ctxs := by
  unfold State.clearLine; split <;> rfl

@[simp] theorem State.clearLine_ctx (s : State) (l : LineId) (c : CtxId) : (s.clearLine l).ctx c = s.ctx c := by
  unfold State.clearLine; split <;> rfl

@[simp] theorem State.clearLine_waiting (s : State) (l : LineId) : (s.clearLine l).waiting = s.waiting := by
  unfold State.clearLine; split <;> rfl

@[simp] theorem State.clearLine_freeLines (s : State) (l : LineId) : (s.clearLine l).freeLines = s.freeLines := by
  unfold State.clearLine; split <;> rfl

@[simp] theorem State.clearLine_schedule (s : State) (l : LineId) : (s.clearLine l).schedule = s.schedule := by
  unfold State.clearLine; split <;> rfl

@[simp] theorem State.clearLine_retained (s : State) (l : LineId) : (s.clearLine l).retained = s.retained := by
  unfold State.clearLine; split <;> rfl

@[simp] theorem State.clearLine_report (s : State) (l : LineId) : (s.clearLine l).report = s.report := by
  unfold State.clearLine; split <;> rfl

/-! ## The ending step of a context -/

/-- The line that the ending step clears: the one an ON_LINE context is on. -/
def Context.lineLeft (x : Context) : Option LineId :=
  if x.state = CtxState.onLine then x.currentLine else none

/-- The context after the ending step (R9, R11, R20). -/
def Context.afterEnd (x : Context) (outcome : CallOutcome) : Context :=
  let y : Context :=
    { x with
      state := .ended, due := none, finalOutcome := some outcome
      currentLine := if x.state = CtxState.onLine then none else x.currentLine
      lastOutcome := if x.lineLeft.isSome then some outcome else x.lastOutcome }
  { y with record := some (y.compose outcome) }

/-- The retained domain after the ending step: the end-of-call bookkeeping of an answered OUTBOUND call (R136). -/
def State.afterEndRetained (s : State) (c : CtxId) : Retained :=
  if (s.ctx c).direction = .outbound ∧ (s.ctx c).stamp.isSome = true then
    match (s.ctx c).account with
    | some a => s.retained.modAccount a Account.callEnded
    | none => s.retained
  else s.retained

/-- The state just before the bookkeeping of the ending step: the place left, the outcome set. -/
theorem State.leavePlace_ctx (s : State) (c d : CtxId) (o : CallOutcome) :
    (s.leavePlace c o).ctx d =
      if d = c ∧ (s.ctx c).lineLeft.isSome = true then
        { s.ctx c with currentLine := none, lastOutcome := some o }
      else s.ctx d := by
  unfold State.leavePlace Context.lineLeft
  cases hs : (s.ctx c).state <;> simp
  cases hl : (s.ctx c).currentLine with
  | none => simp
  | some l =>
    by_cases hd : d = c
    · subst hd; simp
    · simp [hd, State.modCtx_ctx_other _ _ _ _ hd]

theorem State.leavePlace_retained (s : State) (c : CtxId) (o : CallOutcome) :
    (s.leavePlace c o).retained = s.retained := by
  unfold State.leavePlace; split <;> try rfl
  split <;> simp

theorem State.leavePlace_report (s : State) (c : CtxId) (o : CallOutcome) :
    (s.leavePlace c o).report = s.report := by
  unfold State.leavePlace; split <;> try rfl
  split <;> simp

theorem State.leavePlace_freeLines (s : State) (c : CtxId) (o : CallOutcome) :
    (s.leavePlace c o).freeLines = s.freeLines := by
  unfold State.leavePlace; split <;> try rfl
  split <;> simp

theorem State.leavePlace_waiting (s : State) (c : CtxId) (o : CallOutcome) :
    (s.leavePlace c o).waiting = if (s.ctx c).state = .pending then s.waiting.remove c else s.waiting := by
  unfold State.leavePlace; cases hs : (s.ctx c).state <;> simp
  split <;> simp

theorem State.leavePlace_schedule (s : State) (c : CtxId) (o : CallOutcome) :
    (s.leavePlace c o).schedule =
      if (s.ctx c).state = .retryWait then s.schedule.filter fun d => decide (d ≠ c) else s.schedule := by
  unfold State.leavePlace; cases hs : (s.ctx c).state <;> simp [State.unschedule]
  split <;> simp

theorem State.leavePlace_line (s : State) (c : CtxId) (o : CallOutcome) (k : LineId) :
    (s.leavePlace c o).line k =
      if (s.ctx c).lineLeft = some k ∧ (s.line k).state.offHook = true then (s.line k).toClearing else s.line k := by
  unfold State.leavePlace Context.lineLeft
  cases hs : (s.ctx c).state <;> simp [State.unschedule]
  cases hl : (s.ctx c).currentLine with
  | none => simp
  | some l =>
    simp only [State.modCtx_line, State.clearLine_line, Option.some.injEq]
    by_cases hk : k = l
    · subst hk; simp
    · simp [hk, Ne.symm hk]

theorem State.leavePlace_meter (s : State) (c : CtxId) (o : CallOutcome) (k : LineId) :
    (s.leavePlace c o).meter k =
      if (s.ctx c).lineLeft = some k ∧ (s.line k).state.offHook = true then none else s.meter k := by
  unfold State.leavePlace Context.lineLeft
  cases hs : (s.ctx c).state <;> simp [State.unschedule]
  cases hl : (s.ctx c).currentLine with
  | none => simp
  | some l =>
    simp only [State.modCtx_meter, State.clearLine_meter, Option.some.injEq]
    by_cases hk : k = l
    · subst hk; simp
    · simp [hk, Ne.symm hk]

theorem State.bookkeeping_eq (s : State) (c : CtxId) :
    s.bookkeeping c = s.modRetained fun _ => s.afterEndRetained c := by
  unfold State.bookkeeping State.afterEndRetained
  by_cases h : (s.ctx c).direction = .outbound ∧ (s.ctx c).stamp.isSome = true
  · simp only [if_pos h]
    cases (s.ctx c).account <;> rfl
  · simp only [if_neg h]; rfl

/-- Every context after the ending step (R11): the ended one as R9, R11 and R20 leave it, the others as they were. -/
theorem State.endContext_ctx (s : State) (c d : CtxId) (o : CallOutcome) :
    (s.endContext c o).ctx d = if d = c then (s.ctx c).afterEnd o else s.ctx d := by
  unfold State.endContext
  simp only [State.bookkeeping_eq]
  by_cases hd : d = c
  · subst hd
    simp only [State.queue_ctx, State.modCtx_ctx, State.modRetained_ctx, if_true, State.leavePlace_ctx,
      Context.afterEnd, Context.lineLeft, true_and]
    generalize s.ctx d = x
    by_cases hs : x.state = CtxState.onLine
    · rcases Option.eq_none_or_eq_some x.currentLine with hl | ⟨l, hl⟩
      · simp [hs, hl]
      · simp [hs, hl]
    · simp [hs]
  · simp only [State.queue_ctx, State.modCtx_ctx, State.modRetained_ctx, if_neg hd, State.leavePlace_ctx]
    simp [hd]

/-- The reference at the tail of the outbox (R11 step 5); the rest of the report writer as it was. -/
theorem State.endContext_report (s : State) (c : CtxId) (o : CallOutcome) :
    (s.endContext c o).report =
      { s.report with
        outbox := s.report.outbox ++ [{ body := .callEnd c, urgent := (s.ctx c).signalNow }] } := by
  have h : ((s.endContext c o).ctx c).signalNow = (s.ctx c).signalNow := by
    rw [State.endContext_ctx]; simp [Context.afterEnd]
  unfold State.endContext at h ⊢
  simp only [State.queue_ctx] at h
  simp only [State.queue, h]
  simp only [State.bookkeeping_eq]
  simp only [State.modReport_report, State.modCtx_report, State.modRetained_report, State.leavePlace_report]

theorem State.endContext_waiting (s : State) (c : CtxId) (o : CallOutcome) :
    (s.endContext c o).waiting = if (s.ctx c).state = .pending then s.waiting.remove c else s.waiting := by
  rw [← State.leavePlace_waiting s c o]; unfold State.endContext; simp only [State.bookkeeping_eq]; rfl

theorem State.endContext_schedule (s : State) (c : CtxId) (o : CallOutcome) :
    (s.endContext c o).schedule =
      if (s.ctx c).state = .retryWait then s.schedule.filter fun d => decide (d ≠ c) else s.schedule := by
  rw [← State.leavePlace_schedule s c o]; unfold State.endContext; simp only [State.bookkeeping_eq]; rfl

theorem State.endContext_freeLines (s : State) (c : CtxId) (o : CallOutcome) :
    (s.endContext c o).freeLines = s.freeLines := by
  rw [← State.leavePlace_freeLines s c o]; unfold State.endContext; simp only [State.bookkeeping_eq]; rfl

/-- The line an ON_LINE context was on clears (R74); the others stay. -/
theorem State.endContext_line (s : State) (c : CtxId) (o : CallOutcome) (k : LineId) :
    (s.endContext c o).line k =
      if (s.ctx c).lineLeft = some k ∧ (s.line k).state.offHook = true then (s.line k).toClearing else s.line k := by
  rw [← State.leavePlace_line s c o]; unfold State.endContext; simp only [State.bookkeeping_eq]; rfl

/-- Its metering entry closes (R129); the others stay. -/
theorem State.endContext_meter (s : State) (c : CtxId) (o : CallOutcome) (k : LineId) :
    (s.endContext c o).meter k =
      if (s.ctx c).lineLeft = some k ∧ (s.line k).state.offHook = true then none else s.meter k := by
  rw [← State.leavePlace_meter s c o]; unfold State.endContext; simp only [State.bookkeeping_eq]; rfl

/-- The bookkeeping of an answered OUTBOUND call (R136), and no other change of the retained domain. -/
theorem State.endContext_retained (s : State) (c : CtxId) (o : CallOutcome) :
    (s.endContext c o).retained = s.afterEndRetained c := by
  have key : ∀ t : State, (∀ x, t.ctx c = x → x.direction = (s.ctx c).direction ∧ x.stamp = (s.ctx c).stamp
      ∧ x.account = (s.ctx c).account) → t.retained = s.retained → t.afterEndRetained c = s.afterEndRetained c := by
    intro t h hr
    obtain ⟨h1, h2, h3⟩ := h _ rfl
    unfold State.afterEndRetained
    rw [h1, h2, h3, hr]
  unfold State.endContext
  simp only [State.bookkeeping_eq]
  show State.afterEndRetained ((s.leavePlace c o).modCtx c _) c = _
  refine key ((s.leavePlace c o).modCtx c _) ?_ ?_
  · intro x hx
    rw [← hx]
    simp only [State.modCtx_ctx, if_true, State.leavePlace_ctx]
    split <;> simp
  · exact State.leavePlace_retained s c o

/-! ## The ending step of a line -/

/-- What the ending step of a line does (R73): the line clears; an ON_LINE held context detaches, and is judged when an
outbound attempt failed, or ends. -/
theorem State.endOnLine_cases (s : State) (l : LineId) (o : CallOutcome) :
    ((∀ c, (s.line l).held = some c → (s.ctx c).state ≠ .onLine) ∧ s.endOnLine l o = s.clearLine l)
      ∨ ∃ c, (s.line l).held = some c ∧ (s.ctx c).state = .onLine
          ∧ ((o.failureBit.isSome = true ∧ (s.ctx c).direction = .outbound
                ∧ s.endOnLine l o = ((s.clearLine l).detach c o).judgeFailure c l o)
              ∨ (¬(o.failureBit.isSome = true ∧ (s.ctx c).direction = .outbound)
                ∧ s.endOnLine l o = ((s.clearLine l).detach c o).endContext c o)) := by
  unfold State.endOnLine
  split
  · rename_i c hc
    by_cases ho : (s.ctx c).state = .onLine
    · right
      refine ⟨c, hc, ho, ?_⟩
      dsimp only
      rw [if_pos ho]
      by_cases hf : o.failureBit.isSome = true ∧ (s.ctx c).direction = .outbound
      · exact .inl ⟨hf.1, hf.2, by rw [if_pos hf]⟩
      · exact .inr ⟨hf, by rw [if_neg hf]⟩
    · left
      refine ⟨fun d hd => ?_, by dsimp only; rw [if_neg ho]⟩
      cases hc.symm.trans hd; exact ho
  · rename_i hc
    left
    exact ⟨fun d hd => (by cases hc.symm.trans hd), rfl⟩

/-- The judgement of a failed outbound attempt (R105, R13, R106). -/
theorem State.judgeFailure_cases (s : State) (c : CtxId) (l : LineId) (o : CallOutcome) :
    (s.judgeFailure c l o = s.enterRetryWait c l o ∧ (s.ctx c).snapshot.allowsRetry o (s.ctx c).attempts = true
        ∧ s.windingDown = false ∧ s.uptime ≠ Config.max32)
      ∨ (s.judgeFailure c l o = s.endContext c .withdrawn ∧ (s.ctx c).snapshot.allowsRetry o (s.ctx c).attempts = true
        ∧ s.windingDown = true)
      ∨ (s.judgeFailure c l o = s.endContext c o
        ∧ ((s.ctx c).snapshot.allowsRetry o (s.ctx c).attempts = false
          ∨ (s.windingDown = false ∧ s.uptime = Config.max32))) := by
  unfold State.judgeFailure
  cases h1 : (s.ctx c).snapshot.allowsRetry o (s.ctx c).attempts <;> cases h2 : s.windingDown <;>
    by_cases h3 : s.uptime = Config.max32 <;> simp [h3]

end Sys2Proof.Machine
end

