-- ==== Sys2Proof/Laws/Allocator.lean ====
section
/-! SUPPORT. The shape of a pairing pass (R48), of a sweep (R52) and of the other runs over contexts: a property that each of
their single acts keeps is kept by the whole run. -/

namespace Sys2Proof.Machine

/-- What the entry to SEIZE can do (R61): the loop wait ends, the line faults, or the line waits for its loop. -/
theorem State.seizeEntry_cases (s : State) (l : LineId) (c : CtxId) :
    ((s.line l).loopPattern = .normal ∧ s.seizeEntry l c = (s.loopWaitEnd l c, false))
      ∨ ((s.line l).loopPattern = .invalid ∧ s.seizeEntry l c = (s.faultLine l, true))
      ∨ ((s.line l).loopPattern ∈ [.noLoop, .reversed] ∧ s.seizeEntry l c = (s, false)) := by
  unfold State.seizeEntry
  cases h : (s.line l).loopPattern <;> simp

/-- A run of the pass that refuses its first pair goes on from the ending step (R48 step 3). -/
theorem State.passLoop_refused {s : State} {c : CtxId} {l : LineId} {o : CallOutcome} (n : Nat)
    (hp : s.firstPair = some (c, l)) (ho : s.admissionRefusal c = some o) :
    State.passLoop (n + 1) s = State.passLoop n (s.endContext c o) := by
  rw [State.passLoop, hp]; simp only [ho]

/-- A run of the pass that grants its first pair goes on from the entry to SEIZE, and remembers a line lost there (R48
step 3, R61). -/
theorem State.passLoop_granted {s : State} {c : CtxId} {l : LineId} (n : Nat) (hp : s.firstPair = some (c, l))
    (ho : s.admissionRefusal c = none) :
    State.passLoop (n + 1) s
      = ((State.passLoop n ((s.grant c l).seizeEntry l c).1).1,
        ((s.grant c l).seizeEntry l c).2 || (State.passLoop n ((s.grant c l).seizeEntry l c).1).2) := by
  rw [State.passLoop, hp]; simp only [ho]

/-- A run of the pass ends where no pair is found (R48 step 1). -/
theorem State.passLoop_done {s : State} (n : Nat) (hp : s.firstPair = none) : State.passLoop n s = (s, false) := by
  cases n <;> simp [State.passLoop, hp]

/-- What the sweep does to one waiting context (R52). -/
theorem State.sweepOne_cases (s : State) (c : CtxId) :
    (s.maskUsable (s.ctx c).mask = true ∧ s.sweepOne c = s)
      ∨ (s.maskUsable (s.ctx c).mask = false ∧ s.sweepOne c = s.endContext c .noLine) := by
  unfold State.sweepOne
  cases h : s.maskUsable (s.ctx c).mask <;> simp

/-- A property that a refusal at a grant and a grant with its entry to SEIZE keep is kept by a run of the pass. -/
theorem State.passLoop_induct {P : State → Prop}
    (refuse : ∀ (s : State) (c : CtxId) (l : LineId) (o : CallOutcome), s.firstPair = some (c, l) →
      s.admissionRefusal c = some o → P s → P (s.endContext c o))
    (grant : ∀ (s : State) (c : CtxId) (l : LineId), s.firstPair = some (c, l) → s.admissionRefusal c = none → P s →
      P ((s.grant c l).seizeEntry l c).1)
    (n : Nat) {s : State} (h : P s) : P (State.passLoop n s).1 := by
  induction n generalizing s with
  | zero => exact h
  | succ n ih =>
    unfold State.passLoop
    split
    · exact h
    · rename_i c l hp
      split
      · rename_i o ho
        exact ih (refuse s c l o hp ho h)
      · rename_i ho
        exact ih (grant s c l hp ho h)

/-- A property that ending a waiting context without a usable line keeps is kept by the sweep. -/
theorem State.sweep_induct {P : State → Prop}
    (lost : ∀ (s : State) (c : CtxId), s.maskUsable (s.ctx c).mask = false → P s → P (s.endContext c .noLine))
    {s : State} (h : P s) : P s.sweep := by
  unfold State.sweep
  generalize s.waiting.all = cs
  induction cs generalizing s with
  | nil => exact h
  | cons c cs ih =>
    refine ih ?_
    unfold State.sweepOne
    cases hm : s.maskUsable (s.ctx c).mask
    · exact lost s c hm h
    · exact h

/-- A property that every act of a pass and of a sweep keeps is kept by the whole pass. -/
theorem State.pass_induct {P : State → Prop}
    (refuse : ∀ (s : State) (c : CtxId) (l : LineId) (o : CallOutcome), s.firstPair = some (c, l) →
      s.admissionRefusal c = some o → P s → P (s.endContext c o))
    (grant : ∀ (s : State) (c : CtxId) (l : LineId), s.firstPair = some (c, l) → s.admissionRefusal c = none → P s →
      P ((s.grant c l).seizeEntry l c).1)
    (lost : ∀ (s : State) (c : CtxId), s.maskUsable (s.ctx c).mask = false → P s → P (s.endContext c .noLine))
    {s : State} (h : P s) : P s.pass := by
  unfold State.pass
  split
  · have h1 : P (State.passLoop s.waiting.all.length s).1 := State.passLoop_induct refuse grant _ h
    split
    · rename_i he; rw [he] at h1; exact h1
    · rename_i he; rw [he] at h1
      exact State.passLoop_induct refuse grant _ (State.sweep_induct lost h1)
  · exact h

/-- Outside RUNNING no pass is made (R48). -/
theorem State.pass_of_not_running {s : State} (h : s.ctl.engine ≠ .running) : s.pass = s := by
  unfold State.pass; rw [if_neg h]

/-- With no waiting context a pass finds no pair (R48). -/
theorem State.pass_of_no_waiting {s : State} (h : s.waiting.all = []) : s.pass = s := by
  unfold State.pass
  rw [h]
  simp [State.passLoop]

/-- With no waiting context a sweep ends none (R52). -/
theorem State.sweep_of_no_waiting {s : State} (h : s.waiting.all = []) : s.sweep = s := by
  unfold State.sweep; rw [h]; rfl

/-- What a pass serves first (R48): a waiting context whose mask names the line, which is free. -/
theorem State.firstPair_some {s : State} {c : CtxId} {l : LineId} (h : s.firstPair = some (c, l)) :
    c ∈ s.waiting.all ∧ l ∈ s.freeLines ∧ maskNames (s.ctx c).mask l = true := by
  unfold State.firstPair at h
  obtain ⟨d, hd, hf⟩ := List.exists_of_findSome?_eq_some h
  simp only [Option.map_eq_some_iff, Prod.mk.injEq] at hf
  obtain ⟨k, hk, rfl, rfl⟩ := hf
  exact ⟨hd, List.mem_of_find?_eq_some hk, List.find?_some (p := fun l => maskNames (s.ctx d).mask l) hk⟩

/-- Where a pass finds no pair, no waiting context's mask names a free line (R48). -/
theorem State.firstPair_none {s : State} (h : s.firstPair = none) {c : CtxId} {l : LineId} (hc : c ∈ s.waiting.all)
    (hl : l ∈ s.freeLines) : maskNames (s.ctx c).mask l = false := by
  unfold State.firstPair at h
  have h1 := List.findSome?_eq_none_iff.mp h c hc
  simp only [Option.map_eq_none_iff] at h1
  have h2 := List.find?_eq_none.mp h1 l hl
  simpa using h2

/-- A property that ending one context keeps is kept by ending each context of a kind (R21). -/
theorem State.endEach_induct {P : State → Prop} (which : CtxState → Bool) (o : CallOutcome)
    (ending : ∀ (s : State) (c : CtxId), which (s.ctx c).state = true → P s → P (s.endContext c o)) {s : State}
    (h : P s) : P (s.endEach which o) := by
  unfold State.endEach
  generalize allContexts = cs
  induction cs generalizing s with
  | nil => exact h
  | cons c cs ih =>
    simp only [List.foldl_cons]
    refine ih ?_
    split
    · rename_i hw; exact ending s c hw h
    · exact h

/-- A property that handing on the due head keeps is kept by handing on all that are due (R109). -/
theorem State.dueLoop_induct {P : State → Prop}
    (hand : ∀ (s : State) (c : CtxId), s.dueHead = some c → P s → P (s.handOn c)) (n : Nat) {s : State} (h : P s) :
    P (State.dueLoop n s) := by
  induction n generalizing s with
  | zero => exact h
  | succ n ih =>
    unfold State.dueLoop
    split
    · exact h
    · rename_i c hc; exact ih (hand s c hc h)

end Sys2Proof.Machine
end

