-- ==== Sys2Proof/Laws/Check.lean ====
section
/-! SUPPORT. The check words (R41, R165): a table and the check word made from it sum to zero. -/

namespace Sys2Proof.Machine

/-- The sum of two runs of words. -/
theorem sumWords_append (a b : List Half) : sumWords (a ++ b) = sumWords a + sumWords b := by
  induction a with
  | nil => simp [sumWords]
  | cons w ws ih => simp only [List.cons_append, sumWords, ih, BitVec.add_assoc]

/-- A check word made from a run of words agrees with it. -/
@[simp] theorem isSound_checkOf (words : List Half) : isSound words (checkOf words) = true := by
  simp [isSound, checkOf]

/-- A run of words agrees with one check word alone. -/
theorem isSound_iff (words : List Half) (check : Half) : isSound words check = true ↔ check = checkOf words := by
  unfold isSound checkOf
  rw [decide_eq_true_eq]
  constructor
  · intro h
    have := congrArg (fun x => x - sumWords words) h
    simpa [BitVec.add_comm] using this
  · rintro rfl; exact BitVec.add_right_neg _

/-- The calendar moved on agrees with its check word exactly if it did before (R41, R123, log 27). -/
theorem Retained.moveCalendar_sound (t : Retained) (c : Calendar) :
    isSound (calendarWords (t.moveCalendar c).calendar) (t.moveCalendar c).calendarCheck
      = isSound (calendarWords t.calendar) t.calendarCheck := by
  have h : sumWords (calendarWords c)
      + (t.calendarCheck + sumWords (calendarWords t.calendar) - sumWords (calendarWords c))
      = sumWords (calendarWords t.calendar) + t.calendarCheck := by
    rw [BitVec.sub_eq_add_neg, BitVec.add_comm, BitVec.add_assoc, BitVec.add_comm (-_) _, BitVec.add_right_neg,
      BitVec.add_zero, BitVec.add_comm]
  simp only [isSound, Retained.moveCalendar, h]

@[simp] theorem Retained.moveCalendar_calendar (t : Retained) (c : Calendar) : (t.moveCalendar c).calendar = c := rfl

@[simp] theorem Retained.moveCalendar_prefixes (t : Retained) (c : Calendar) :
    (t.moveCalendar c).prefixes = t.prefixes := rfl

@[simp] theorem Retained.moveCalendar_bands (t : Retained) (c : Calendar) : (t.moveCalendar c).bands = t.bands := rfl

@[simp] theorem Retained.moveCalendar_accounts (t : Retained) (c : Calendar) :
    (t.moveCalendar c).accounts = t.accounts := rfl

@[simp] theorem Retained.moveCalendar_policies (t : Retained) (c : Calendar) :
    (t.moveCalendar c).policies = t.policies := rfl

/-- A table that a cut write did not reach keeps its content and its check word (R41, log 19). -/
theorem Retained.cutTable_other (t lost : Retained) (which : RetainedTable) :
    (which ≠ .prefixes → (t.cutTable lost which).prefixes = t.prefixes
        ∧ (t.cutTable lost which).prefixCheck = t.prefixCheck)
      ∧ (which ≠ .bands → (t.cutTable lost which).bands = t.bands ∧ (t.cutTable lost which).bandCheck = t.bandCheck)
      ∧ (which ≠ .accounts → (t.cutTable lost which).accounts = t.accounts
        ∧ (t.cutTable lost which).accountCheck = t.accountCheck)
      ∧ (which ≠ .policies → (t.cutTable lost which).policies = t.policies
        ∧ (t.cutTable lost which).policyCheck = t.policyCheck)
      ∧ (which ≠ .calendar → (t.cutTable lost which).calendar = t.calendar
        ∧ (t.cutTable lost which).calendarCheck = t.calendarCheck) := by
  cases which <;> simp [Retained.cutTable]

end Sys2Proof.Machine
end

