-- ==== Sys2Proof/Laws/Flow.lean ====
section
/-! SUPPORT. When a happening is acted on and when it is not: register writes (R163), happenings at a line (R79), the
judgements of R161 and R162, the choice of a take (R31, R32). -/

namespace Sys2Proof.Machine

theorem State.registerWrite_cases (s : State) (effect : State → State) :
    (s.inReset = true ∧ s.registerWrite effect = s) ∨ (s.inReset = false ∧ s.registerWrite effect = effect s) := by
  unfold State.registerWrite
  cases h : s.inReset <;> simp

theorem State.atLine_cases (s : State) (happening : State → State) :
    (s.linesRun = false ∧ s.atLine happening = s)
      ∨ (s.linesRun = true ∧ s.atLine happening = (happening s).judgeDrain) := by
  unfold State.atLine
  cases h : s.linesRun <;> simp

theorem State.judgeDrain_cases (s : State) :
    (s.ctl.engine = .draining ∧ s.drained = true ∧ s.judgeDrain = s.enterReady)
      ∨ (¬(s.ctl.engine = .draining ∧ s.drained = true) ∧ s.judgeDrain = s) := by
  unfold State.judgeDrain
  by_cases h : s.ctl.engine = .draining ∧ s.drained = true
  · exact .inl ⟨h.1, h.2, if_pos h⟩
  · exact .inr ⟨h, if_neg h⟩

theorem State.judgeAbort_cases (s : State) :
    (s.ctl.engine = .aborting ∧ s.report.outbox = [] ∧ s.judgeAbort = s.enterReady)
      ∨ (¬(s.ctl.engine = .aborting ∧ s.report.outbox = []) ∧ s.judgeAbort = s) := by
  unfold State.judgeAbort
  simp only [List.isEmpty_iff]
  by_cases h : s.ctl.engine = .aborting ∧ s.report.outbox = []
  · exact .inl ⟨h.1, h.2, if_pos h⟩
  · exact .inr ⟨h, if_neg h⟩

/-- Outside DRAINING the drain condition is not judged (R161). -/
theorem State.judgeDrain_of_not_draining {s : State} (h : s.ctl.engine ≠ .draining) : s.judgeDrain = s := by
  unfold State.judgeDrain; rw [if_neg (fun k => h k.1)]

/-- Outside ABORTING the emptiness of the outbox is not judged (R162). -/
theorem State.judgeAbort_of_not_aborting {s : State} (h : s.ctl.engine ≠ .aborting) : s.judgeAbort = s := by
  unfold State.judgeAbort; rw [if_neg (fun k => h k.1)]

/-- What a take command does (R31, R32): nothing outside RUNNING; with no record the head is considered; a read error
halts; the record is taken when intake chooses its ring, and otherwise the heads are considered alone. -/
theorem State.takeFrom_cases (s : State) (r : OrderRing) (bus : TakeBus) (need : Need) (cells : List (Nat × Byte))
    (act : State → State) :
    (s.ctl.engine ≠ .running ∧ s.takeFrom r bus need cells act = s)
      ∨ (s.ctl.engine = .running ∧ (s.ring r).hasRecord = false
          ∧ s.takeFrom r bus need cells act = s.considerRing r need)
      ∨ (s.ctl.engine = .running ∧ (s.ring r).hasRecord = true ∧ bus = .readError
          ∧ s.takeFrom r bus need cells act = (s.storeCells (s.ring r).headAddr cells).halt .memoryFault)
      ∨ (s.ctl.engine = .running ∧ (s.ring r).hasRecord = true ∧ bus ≠ .readError
          ∧ ((∃ streak, ((s.storeCells (s.ring r).headAddr cells).considerHeads r need).choose = some (r, streak)
                ∧ s.takeFrom r bus need cells act
                  = (act (((s.storeCells (s.ring r).headAddr cells).considerHeads r need).setStreak streak)).finishTake
                      r bus)
            ∨ ((∀ streak, ((s.storeCells (s.ring r).headAddr cells).considerHeads r need).choose ≠ some (r, streak))
                ∧ s.takeFrom r bus need cells act
                  = (s.storeCells (s.ring r).headAddr cells).considerHeads r need))) := by
  unfold State.takeFrom
  by_cases he : s.ctl.engine = .running
  · cases hr : (s.ring r).hasRecord
    · exact .inr (.inl ⟨he, rfl, by simp [he]⟩)
    · by_cases hb : bus = .readError
      · exact .inr (.inr (.inl ⟨he, rfl, hb, by simp [he, hb]⟩))
      · refine .inr (.inr (.inr ⟨he, rfl, hb, ?_⟩))
        simp only [he, and_self, if_true, if_neg hb]
        generalize (s.storeCells (s.ring r).headAddr cells).considerHeads r need = u
        cases hc : u.choose with
        | none => right; simp
        | some p =>
          obtain ⟨q, streak⟩ := p
          by_cases hq : q = r
          · subst hq; left; exact ⟨streak, rfl, by simp⟩
          · right; simp [hq]
  · exact .inl ⟨he, by simp [he]⟩

/-- A head considered keeps the place, the indices and the size of its ring. -/
theorem Ring.considered_cases (x : Ring) (need : Need) (isFree : Bool) :
    (x.considered need isFree = x)
      ∨ (x.state = .active ∧ x.consumer = x.cachedProducer ∧ x.considered need isFree = { x with state := .empty })
      ∨ (x.state = .active ∧ x.consumer ≠ x.cachedProducer ∧ isFree = false
          ∧ x.considered need isFree = { x with state := .held need }) := by
  unfold Ring.considered
  by_cases h1 : x.state = .active
  · by_cases h2 : x.consumer = x.cachedProducer
    · exact .inr (.inl ⟨h1, h2, by simp [h1, h2]⟩)
    · cases isFree
      · exact .inr (.inr ⟨h1, h2, rfl, by simp [h1, h2]⟩)
      · exact .inl (by simp [h1, h2])
  · exact .inl (by simp [h1])

/-- What a choice answers (R31): a ring that has a record. -/
theorem State.choose_some {s : State} {r : OrderRing} {n : Nat} (h : s.choose = some (r, n)) :
    (s.ring r).hasRecord = true := by
  unfold State.choose ringChoice at h
  cases hu : (s.ring .urgent).hasRecord <;> cases hr : (s.ring .routine).hasRecord <;> rw [hu, hr] at h
  · simp at h
  · simp at h; rw [← h.1]; exact hr
  · simp at h; rw [← h.1]; exact hu
  · simp only at h
    split at h <;> simp at h <;> rw [← h.1]
    · exact hu
    · exact hr

end Sys2Proof.Machine
end

