-- ==== Sys2Proof/Laws/Memory.lean ====
section
/-! SUPPORT. The laws of shared memory: what is read after a write, and that every operation keeps the canonical form. -/

namespace Sys2Proof.Machine

/-- Below every listed address an unlisted one reads as nothing has written it. -/
theorem Memory.read_of_above {m : Memory} {a b : Nat} (h : Memory.above a m = true) (hb : b ≤ a) :
    Memory.read m b = Memory.unlisted := by
  induction m with
  | nil => rfl
  | cons e rest ih =>
    obtain ⟨k, v⟩ := e
    simp only [Memory.above, Bool.and_eq_true, decide_eq_true_eq] at h
    simp only [Memory.read]
    rw [if_neg (by omega)]
    exact ih h.2

theorem Memory.above_mono {m : Memory} {a b : Nat} (h : Memory.above a m = true) (hb : b ≤ a) :
    Memory.above b m = true := by
  induction m with
  | nil => rfl
  | cons e rest ih =>
    obtain ⟨k, v⟩ := e
    simp only [Memory.above, Bool.and_eq_true, decide_eq_true_eq] at h ⊢
    exact ⟨by omega, ih h.2⟩

/-- The byte read at an address after a write there. -/
theorem Memory.read_write_same (m : Memory) (a : Nat) (v : Byte) (h : Memory.wf m = true) :
    Memory.read (Memory.write m a v) a = v := by
  induction m with
  | nil =>
    simp only [Memory.write]
    split
    · rename_i hv; simp [Memory.read, hv]
    · simp [Memory.read]
  | cons e rest ih =>
    obtain ⟨k, w⟩ := e
    simp only [Memory.wf, Bool.and_eq_true, decide_eq_true_eq] at h
    simp only [Memory.write]
    split
    · rename_i hlt
      split
      · rename_i hv
        simp only [Memory.read]
        rw [if_neg (by omega), hv]
        exact Memory.read_of_above h.1.2 (by omega)
      · simp [Memory.read]
    · split
      · rename_i hk
        subst hk
        split
        · rename_i hv
          rw [hv]
          exact Memory.read_of_above h.1.2 (Nat.le_refl _)
        · simp [Memory.read]
      · rename_i hlt hne
        simp only [Memory.read]
        rw [if_neg (by omega)]
        exact ih h.2

/-- A write leaves every other address as it was. -/
theorem Memory.read_write_other (m : Memory) (a b : Nat) (v : Byte) (hab : b ≠ a) (h : Memory.wf m = true) :
    Memory.read (Memory.write m a v) b = Memory.read m b := by
  induction m with
  | nil =>
    simp only [Memory.write]
    split
    · rfl
    · simp [Memory.read, Ne.symm hab]
  | cons e rest ih =>
    obtain ⟨k, w⟩ := e
    simp only [Memory.wf, Bool.and_eq_true, decide_eq_true_eq] at h
    simp only [Memory.write]
    split
    · split
      · rfl
      · simp [Memory.read, Ne.symm hab]
    · split
      · rename_i hk
        subst hk
        split
        · simp [Memory.read, Ne.symm hab]
        · simp [Memory.read, Ne.symm hab]
      · simp only [Memory.read]
        split
        · rfl
        · exact ih h.2

theorem Memory.above_write {m : Memory} {a b : Nat} {v : Byte} (h : Memory.above a m = true) (hb : a < b) :
    Memory.above a (Memory.write m b v) = true := by
  induction m with
  | nil =>
    simp only [Memory.write]
    split
    · rfl
    · simp [Memory.above, hb]
  | cons e rest ih =>
    obtain ⟨k, w⟩ := e
    simp only [Memory.above, Bool.and_eq_true, decide_eq_true_eq] at h
    simp only [Memory.write]
    split
    · split
      · simp [Memory.above, h.1, h.2]
      · simp [Memory.above, h.1, h.2, hb]
    · split
      · split
        · exact h.2
        · simp [Memory.above, h.2, hb]
      · simp [Memory.above, h.1, ih h.2]

/-- A write keeps the canonical form. -/
theorem Memory.write_wf {m : Memory} (a : Nat) (v : Byte) (h : Memory.wf m = true) :
    Memory.wf (Memory.write m a v) = true := by
  induction m with
  | nil =>
    simp only [Memory.write]
    split
    · rfl
    · rename_i hv; simp [Memory.wf, Memory.above, hv]
  | cons e rest ih =>
    obtain ⟨k, w⟩ := e
    have h0 := h
    simp only [Memory.wf, Bool.and_eq_true, decide_eq_true_eq] at h
    simp only [Memory.write]
    split
    · rename_i hlt
      split
      · exact h0
      · rename_i hv
        simp only [Memory.wf, Memory.above, Bool.and_eq_true, decide_eq_true_eq]
        exact ⟨⟨hv, hlt, Memory.above_mono h.1.2 (by omega)⟩, h.1, h.2⟩
    · split
      · rename_i hk
        subst hk
        split
        · exact h.2
        · rename_i hv
          simp only [Memory.wf, Bool.and_eq_true, decide_eq_true_eq]
          exact ⟨⟨hv, h.1.2⟩, h.2⟩
      · rename_i hlt hne
        simp only [Memory.wf, Bool.and_eq_true, decide_eq_true_eq]
        exact ⟨⟨h.1.1, Memory.above_write h.1.2 (by omega)⟩, ih h.2⟩

/-- A run of stores keeps the canonical form. -/
theorem Memory.writeCells_wf (base : Word) (cells : List (Nat × Byte)) {m : Memory} (h : Memory.wf m = true) :
    Memory.wf (Memory.writeCells base cells m) = true := by
  induction cells generalizing m with
  | nil => exact h
  | cons e rest ih => exact ih (Memory.write_wf _ _ h)

/-- The host's stores keep the canonical form. -/
theorem Memory.hostStores_wf (stores : HostStores) {m : Memory} (h : Memory.wf m = true) :
    Memory.wf (Memory.hostStores stores m) = true := by
  induction stores generalizing m with
  | nil => exact h
  | cons e rest ih => exact ih (Memory.write_wf _ _ h)

/-- A run of stores leaves every address it does not name as it was. -/
theorem Memory.read_writeCells_other (base : Word) (cells : List (Nat × Byte)) (b : Nat) {m : Memory}
    (h : Memory.wf m = true) (hb : ∀ e ∈ cells, addrOf base e.1 ≠ b) :
    Memory.read (Memory.writeCells base cells m) b = Memory.read m b := by
  induction cells generalizing m with
  | nil => rfl
  | cons e rest ih =>
    simp only [Memory.writeCells]
    rw [ih (Memory.write_wf _ _ h) fun x hx => hb x (List.mem_cons_of_mem _ hx),
      Memory.read_write_other _ _ _ _ (Ne.symm (hb e List.mem_cons_self)) h]

/-- The host's stores leave every address they do not name as it was. -/
theorem Memory.read_hostStores_other (stores : HostStores) (b : Nat) {m : Memory} (h : Memory.wf m = true)
    (hb : ∀ e ∈ stores, e.1.toNat ≠ b) :
    Memory.read (Memory.hostStores stores m) b = Memory.read m b := by
  induction stores generalizing m with
  | nil => rfl
  | cons e rest ih =>
    simp only [Memory.hostStores]
    rw [ih (Memory.write_wf _ _ h) fun x hx => hb x (List.mem_cons_of_mem _ hx),
      Memory.read_write_other _ _ _ _ (Ne.symm (hb e List.mem_cons_self)) h]

/-- The bytes that have landed are some of those that were to be written (logs 19, 24). -/
theorem mem_of_mem_landedCells {landed : BitVec 64} {bytes : List Byte} {cell : Nat × Byte}
    (h : cell ∈ landedCells landed bytes) : cell ∈ cellsAt 0 bytes ∧ landed.getLsbD cell.1 = true :=
  List.mem_filter.mp h

/-- Two offsets below 2^32 from one base name one address only if they are equal. -/
theorem addrOf_inj (base : Word) {i j : Nat} (hi : i < 2 ^ 32) (hj : j < 2 ^ 32) (h : addrOf base i = addrOf base j) :
    i = j := by
  have h1 : base + BitVec.ofNat 32 i = base + BitVec.ofNat 32 j := BitVec.eq_of_toNat_eq h
  have h2 : BitVec.ofNat 32 i = BitVec.ofNat 32 j := by simpa using h1
  have h3 := congrArg BitVec.toNat h2
  rw [BitVec.toNat_ofNat, BitVec.toNat_ofNat, Nat.mod_eq_of_lt hi, Nat.mod_eq_of_lt hj] at h3
  exact h3

end Sys2Proof.Machine
end

