-- ==== Sys2Proof/Laws/Resets.lean ====
section
/-! SUPPORT. What a power-on reset, a broken write and the advance of the calendar can do (R163, R41, R123, R148). -/

namespace Sys2Proof.Machine

/-- A broken record write touches shared memory alone (logs 19, 24). -/
theorem State.writePart_eq (s : State) (e : OutboxEntry) (landed : BitVec 64) :
    s.writePart e landed
      = { s with mem := Memory.writeCells s.report.slot (landedCells landed (s.entryBytes e)) s.mem } := rfl

/-- What the cut of an access can do (R163, log 19): nothing, part of the record of the outbox's head written, one table
and its check word taken from a free value. -/
theorem State.cutBy_cases (s : State) (cut : PowerCut) :
    s.cutBy cut = s
      ∨ (∃ landed e rest, cut = .record landed ∧ s.report.outbox = e :: rest ∧ s.mayPost = true
        ∧ s.cutBy cut = s.writePart e landed)
      ∨ ∃ which, cut = .table which ∧ s.writesTable which = true
        ∧ s.cutBy cut = { s with
            retained := s.retained.cutTable (Config.lostRetained s.seed) which, seed := s.seed + 1 } := by
  cases cut with
  | nothing => exact .inl rfl
  | record landed =>
    simp only [State.cutBy]
    split
    · exact .inl rfl
    · rename_i e rest h
      split
      · rename_i hp
        exact .inr (.inl ⟨landed, e, rest, rfl, h, hp, rfl⟩)
      · exact .inl rfl
  | table which =>
    simp only [State.cutBy]
    split
    · rename_i h
      exact .inr (.inr ⟨which, rfl, h, rfl⟩)
    · exact .inl rfl

/-- A cut access leaves everything but shared memory, the retained domain and the count of free values. -/
theorem State.cutBy_keeps (s : State) (cut : PowerCut) :
    (s.cutBy cut).ctl = s.ctl ∧ (s.cutBy cut).power = s.power ∧ (s.cutBy cut).lines = s.lines
      ∧ (s.cutBy cut).pending = s.pending ∧ (s.cutBy cut).report = s.report := by
  rcases s.cutBy_cases cut with h | ⟨_, _, _, _, _, _, h⟩ | ⟨_, _, _, h⟩ <;> rw [h] <;> exact ⟨rfl, rfl, rfl, rfl, rfl⟩

/-- A cut access keeps the canonical form of shared memory. -/
theorem State.cutBy_wf (s : State) (cut : PowerCut) (h : Memory.wf s.mem = true) :
    Memory.wf (s.cutBy cut).mem = true := by
  rcases s.cutBy_cases cut with k | ⟨_, _, _, _, _, _, k⟩ | ⟨_, _, _, k⟩ <;> rw [k]
  · exact h
  · exact Memory.writeCells_wf _ _ h
  · exact h

/-- A crossing of VDD loses the retained content exactly at a fall without a battery (R163, log 14). -/
theorem State.powerCrosses_cases (s : State) (vdd : VddCrossing) :
    (vdd.above = false ∧ s.power.vbatPresent = false ∧ s.powerCrosses vdd = (s.beginPowerReset vdd).loseContent)
      ∨ ((vdd.above = true ∨ s.power.vbatPresent = true) ∧ s.powerCrosses vdd = s.beginPowerReset vdd) := by
  cases h : vdd.above <;> cases k : s.power.vbatPresent <;> simp [State.powerCrosses, h, k]

/-- The calendar's advance changes the calendar and its check word, or nothing when no supply is present (R123, log 27). -/
theorem State.calendarAdvances_cases (s : State) :
    (s.calendarPowered = true
        ∧ s.calendarAdvances = { s with retained := s.retained.moveCalendar s.retained.calendar.advance })
      ∨ (s.calendarPowered = false ∧ s.calendarAdvances = s) := by
  unfold State.calendarAdvances
  split
  · rename_i h; exact .inl ⟨h, rfl⟩
  · rename_i h; exact .inr ⟨by simpa using h, rfl⟩

end Sys2Proof.Machine
end

