-- ==== Sys2Proof/Tests/Slice0.lean ====
section
/-! SUPPORT. Tests of single commands, with results from the spec's tables and worked examples, and one witness for the
hypotheses of each obligation. -/

namespace Sys2Proof.Tests

open Machine

set_option Elab.async false

/-! ## Small states -/

/-- The state after reset with the engine in a given state. -/
def inEngine (e : EngineState) : State := { State.reset with ctl := { State.reset.ctl with engine := e } }

/-- An order ring of 4 slots at 1000h with its header at 400h and `distance` records ahead of consumer index 0. -/
def ringOf (distance : Half) (st : RingState) : Ring :=
  { base := 0x1000, size := 4, header := 0x400, cachedProducer := distance, consumer := 0, state := st }

/-- RUNNING with one record in the URGENT ring; the ROUTINE ring is EMPTY. -/
def oneRecord : State :=
  { inEngine .running with
    intake := { urgent := ringOf 1 .active, routine := { ringOf 0 .empty with base := 0x2000, header := 0x440 }
                streak := 0 } }

/-- The call of the example of section 12.6, on line L3. -/
def call : Context :=
  { Context.cleared with
    state := .onLine, tag := 0x0217, account := some 5, tariff := some 1, mask := 0x0C, progress := true
    digits := some [.tone 9, .wait, .tone 2, .tone 1], snapshot := { limit := 4, intervals := [30, 120], outcomes := 3 }
    attempts := 1, lastLine := some 3, currentLine := some 3 }

/-- RUNNING, line L3 in a given state held by context C0 with the call of section 12.6. -/
def onLine (st : LineState) (f : Line → Line) : State :=
  { ((inEngine .running).withCtx 0 call).withLine 3
      (f { State.reset.line 3 with state := st, held := if st.offHook then some 0 else none }) with
    freeLines := [0, 1, 2, 4, 5, 6, 7] }

/-- RUNNING with the call of section 12.6 in context C0 in a given state off the line, on its list. -/
def offLine (st : CtxState) : State :=
  { (inEngine .running).withCtx 0
      { call with state := st, currentLine := none, due := if st = .retryWait then some 7 else none } with
    waiting := { urgent := [], routine := if st = .pending then [0] else [] }
    schedule := if st = .retryWait then [0] else [] }

/-- Every line DISABLED. -/
def noLines (s : State) : State :=
  { s with lines := Vector.replicate 8 { State.reset.line 0 with state := .disabled }, freeLines := [] }

/-- The next state of a command, or the state it was given. -/
def after (i : Instr) (s : State) : State :=
  match exec i s with
  | .next t => t
  | _ => s

/-! ## Ill-formed commands are refused by the check -/

/-- CONTROL = 1 is START, a command (R157). -/
theorem test_badCommand_wellFormed :
    (Instr.badCommand 1).wellFormed = false ∧ (Instr.badCommand 8).wellFormed = false
      ∧ (Instr.badCommand 0).wellFormed = true ∧ (Instr.badCommand 3).wellFormed = true := by decide

/-- Operation 1 on account 31 with a limited flag of 1 is a valid ACCOUNT record (R39). -/
theorem test_accountInvalid_wellFormed :
    (Instr.accountInvalidOperation .urgent .ok { tag := 0, account := 31, op := 1, limitedFlag := 1, limit := 0 }).wellFormed
        = false
      ∧ (Instr.accountInvalidOperation .urgent .ok { tag := 0, account := 32, op := 1, limitedFlag := 1, limit := 0 }).wellFormed
        = true := by decide

/-- Kind 15h is SET_CLOCK (R172). -/
theorem test_unknownKind_wellFormed :
    (Instr.unknownRequestKind .urgent .ok 0x15 0).wellFormed = false
      ∧ (Instr.unknownRequestKind .urgent .ok 0x16 0).wellFormed = true := by decide

/-! ## Records and registers -/

/-- The bytes of the PLACE_CALL record of section 12.6. -/
def exampleRecord (k : Nat) : Byte :=
  [0x01, 0x02, 0x17, 0x02, 0x05, 0x0C, 0x02, 0x04, 0, 0, 0, 0, 0, 0, 0, 0].getD k 0

theorem test_decode_placeCall_of_12_6 :
    (decodeRequest .routine .ok (fun k => if k < 12 then exampleRecord k else [0x09, 0x0D, 0x02, 0x01].getD (k - 12) 0xEE))
      = .placeCall .routine .ok
          { flags := 0x02, tag := 0x0217, account := 0x05, mask := 0x0C, policy := 0x02, digitCount := 0x04
            answerTimeout := 0, maxDuration := 0
            digits := #v[0x09, 0x0D, 0x02, 0x01, 0xEE, 0xEE, 0xEE, 0xEE, 0xEE, 0xEE, 0xEE, 0xEE, 0xEE, 0xEE, 0xEE,
              0xEE, 0xEE, 0xEE, 0xEE, 0xEE, 0xEE, 0xEE, 0xEE, 0xEE] } := by decide +kernel

/-- R170: RUNNING is code 2, MEMORY_FAULT code 4, the ROUTINE fault flag bit 9, the reset cause SOFT code 2. -/
theorem test_state_register :
    { inEngine .running with
      ctl := { (inEngine .running).ctl with routineFault := true, cause := .soft } }.readRegister 0 = 0x02000202
      ∧ { inEngine .halted with ctl := { (inEngine .halted).ctl with error := .memoryFault } }.readRegister 0
        = 0x00000045 := by decide +kernel

/-! ## Tables of chapters 7, 8 and 9 -/

/-- The prefix table of section 8.2, with the default class 1. -/
def prefixes82 : State :=
  let e := fun (symbols : List (Fin 12)) (cls : PrefixClass) => some ({ symbols := symbols, cls := cls } : PrefixEntry)
  { State.reset with
    ctl := { State.reset.ctl with setup := { State.reset.ctl.setup with defaultClass := some 1 } }
    retained := { State.reset.retained with
      prefixes := ((((State.reset.retained.prefixes.set 2 (e [0, 0] .barred)).set 5 (e [0, 0, 4, 4] (.tariff 6))).set 9
        (e [0] (.tariff 2))).set 11 (e [0, 0, 4, 4] (.tariff 7))).set 14 (e [1, 1, 2] (.tariff 0)) } }

theorem test_resolve_of_8_2 :
    prefixes82.resolve [0, 0, 4, 4, 1, 2, 3, 4] = .tariff 6 ∧ prefixes82.resolve [0, 0, 3, 3, 1, 2, 3, 4] = .barred
      ∧ prefixes82.resolve [0] = .tariff 2 ∧ prefixes82.resolve [1, 1, 2] = .tariff 0
      ∧ prefixes82.resolve [5, 5, 5, 1] = .tariff 1 ∧ prefixes82.resolve [] = .tariff 1 := by decide +kernel

/-- The three bands of the worked table of R120, for class 1, at a day and second. -/
def bands83 (day : Half) (second : Nat) (valid : Bool) : State :=
  let row : Vector (Option Band) 4 :=
    #v[some { daySet := .all, start := 25200, period := 180, unitCharge := 1, setupCharge := 0 },
       some { daySet := .workdays, start := 28800, period := 60, unitCharge := 2, setupCharge := 1 },
       some { daySet := .workdays, start := 64800, period := 120, unitCharge := 1, setupCharge := 1 }, none]
  { State.reset with
    retained := { State.reset.retained with
      bands := State.reset.retained.bands.set 1 row
      calendar := { day := day, second := second, ms := 0, valid := valid } } }

theorem test_band_in_force_of_8_3 :
    ((bands83 14 30000 true).priceNow (some 1)).period = 60 ∧ ((bands83 14 70000 true).priceNow (some 1)).period = 120
      ∧ ((bands83 15 3600 true).priceNow (some 1)).period = 120 ∧ ((bands83 19 3600 true).priceNow (some 1)).period = 120
      ∧ ((bands83 20 3600 true).priceNow (some 1)).period = 180 ∧ ((bands83 20 40000 true).priceNow (some 1)).period = 180
      ∧ ((bands83 20 40000 false).priceNow (some 1)).period = 180
      ∧ ((bands83 20 40000 true).priceNow (some 2)).period = 60 := by decide +kernel

/-- The table of R106 with the intervals 30 s and 120 s: attempt counts 1, 2 and 3, by the due uptime. -/
theorem test_retry_interval_of_R106 :
    let due := fun (attempts : Nat) =>
      ((after (.answerTimerExpiry 3)
        ((onLine .awaitAnswer fun ln => { ln with answerTimer := some 1 }).withCtx 0 { call with attempts := attempts })).ctx
        0).due
    due 1 = some 30 ∧ due 2 = some 120 ∧ due 3 = some 120 ∧ due 4 = none := by decide +kernel

/-- The charge rule of R130 at a unit start on a limited account: total and charge at the limit, and one above it. -/
theorem test_charge_at_the_limit :
    let metered := fun (total : Nat) =>
      { (onLine .connected id).withAccount 5
          { Account.cleared with limited := true, limit := 100, total := total, active := 1 } with
        meters := (onLine .connected id).meters.set 3 (some
          { ctx := 0, account := 5, tariff := some 1, unitNumber := 1, unitPeriod := 60, unitCharge := 2, nextStart := 0
            warned := false })
        retained := { ((onLine .connected id).withAccount 5
          { Account.cleared with limited := true, limit := 100, total := total, active := 1 }).retained with
          bands := (bands83 14 30000 true).retained.bands
          calendar := { day := 14, second := 30000, ms := 0, valid := true } } }
    ((after (.unitStart 3) (metered 98)).account 5).total = 100
      ∧ ((after (.unitStart 3) (metered 98)).ctx 0).units = 2
      ∧ ((after (.unitStart 3) (metered 99)).account 5).total = 99
      ∧ ((after (.unitStart 3) (metered 99)).ctx 0).finalOutcome = some .limitReached := by decide +kernel

/-! ## Commands -/

/-- A setup block (R171): rings of 4 slots at 1000h, 2000h and 3000h, headers at 400h, 440h and 480h, hold time 0, batch
count 1, default class NONE, sense qualify 32 ms. -/
def setupStores : HostStores :=
  [(0x01, 0x10), (0x05, 0x20), (0x09, 0x30), (0x0D, 0x04), (0x10, 0x40), (0x11, 0x04), (0x14, 0x80), (0x15, 0x04),
   (0x18, 4), (0x1A, 4), (0x1C, 4), (0x1E, 0), (0x1F, 1), (0x20, 0xFF), (0x21, 32)]

/-- R160: RUNNING, both order rings EMPTY, STARTED queued. -/
theorem test_start_runs :
    let t := after (.start setupStores .urgent .ok) (inEngine .ready)
    t.ctl.engine = .running ∧ t.intake.routine.base = 0x2000 ∧ t.intake.routine.header = 0x440
      ∧ t.intake.urgent.state = .empty ∧ t.report.adopted = true ∧ t.report.header = 0x480
      ∧ t.report.outbox.length = 1 := by decide +kernel

/-- R159: a batch count of 0 is refused. -/
theorem test_start_refused :
    (after (.start (setupStores ++ [(0x1F, 0)]) .urgent .ok) (inEngine .ready)).ctl.error = .badSetup := by decide +kernel

/-- R161: with nothing active and an empty outbox QUIESCE goes to READY in the same happening. -/
theorem test_quiesce_to_ready : (after .quiesce (inEngine .running)).ctl.engine = .ready := by decide +kernel

/-- R162 and R74: the call ends with ABORTED, its line clears. -/
theorem test_abort_clears_the_line :
    ((after .abort (onLine .dialing id)).ctx 0).finalOutcome = some .aborted
      ∧ ((after .abort (onLine .dialing id)).line 3).state = .clearing
      ∧ (after .abort (onLine .dialing id)).ctl.engine = .aborting := by decide +kernel

/-- R163: a soft reset after READY was reached has cause SOFT. -/
theorem test_soft_reset_cause :
    let s := { inEngine .halted with power := { State.reset.power with roseSinceReady := false } }
    (after .reset s).ctl.cause = .soft ∧ (after .reset s).ctl.engine = .checking := by decide +kernel

/-- R163: while VDD is below its threshold the battery holds the tables; VBAT lost above it leaves them as they are. -/
theorem test_supply_holds_the_tables :
    (after (.powerOnReset { above := false, cut := .nothing }) prefixes82).retained.prefixes[5]
        = prefixes82.retained.prefixes[5]
      ∧ (after .vbatLoss prefixes82).retained.prefixes[5] = prefixes82.retained.prefixes[5] := by decide +kernel

/-- R123: the last second of day 65535 is followed by the first of day 0. -/
theorem test_calendar_wraps :
    let k := (after .calendarAdvance (bands83 65535 86399 true)).retained.calendar
    k.day = 0 ∧ k.second = 0 ∧ k.valid = true := by decide +kernel

/-- The CANCEL of section 12.6 on the call in RETRY_WAIT: REQUEST_DONE ahead of the CALL_END with CANCELLED. -/
theorem test_cancel_of_12_6 :
    let s := { offLine .retryWait with intake := oneRecord.intake }
    let t := after (.cancel .urgent .ok { flags := 0, tag := 0x0900, target := 0x0217 }) s
    (t.ctx 0).finalOutcome = some .cancelled ∧ t.schedule = []
      ∧ t.report.outbox.map OutboxEntry.body
        = [.done { tag := 0x0900, kind := 0x03, status := .done, data := none }, .callEnd 0]
      ∧ t.intake.urgent.state = .empty ∧ t.readConsumer 0x400 = 1 := by decide +kernel

/-- The CALL_END of section 12.6, byte for byte where the example gives it. -/
theorem test_callEnd_bytes_of_12_6 :
    let s := { offLine .retryWait with intake := oneRecord.intake }
    let t := after (.cancel .urgent .ok { flags := 0, tag := 0x0900, target := 0x0217 }) s
    (t.entryBytes { body := .callEnd 0, urgent := false }).take 20
      = [0x01, 0, 0x17, 0x02, 0x13, 0, 1, 3, 1, 5, 1, 0, 0, 0, 0, 0, 0xFF, 0xFF, 0xFF, 0xFF] := by decide +kernel

/-- R99: a RINGING line with a NORMAL loop is CONNECTED_IN at the ACCEPT. -/
theorem test_accept_on_normal :
    let s := { oneRecord with
      lines := oneRecord.lines.set 2 { State.reset.line 2 with state := .ringing, loopPattern := .normal }
      freeLines := [0, 1, 3, 4, 5, 6, 7] }
    let t := after (.accept .urgent .ok { flags := 0, tag := 9, line := 2, maxDuration := 0 }) s
    (t.line 2).state = .connectedIn ∧ (t.ctx 0).direction = .inbound ∧ (t.ctx 0).state = .onLine := by decide +kernel

/-- R100 and R51: a ring on a line in SEIZE gives the attempt back; the pairing pass grants the other line of the mask. -/
theorem test_glare :
    let t := after (.qualifiedRing 3) (onLine .seize fun ln => { ln with ringRaw := true, ringQual := some 1 })
    (t.line 3).state = .ringing ∧ (t.ctx 0).attempts = 1 ∧ (t.ctx 0).currentLine = some 2 := by decide +kernel

/-- R64: the tone of a digit gives way to its gap of 80 ms. -/
theorem test_digit_gap :
    let t := after (.digitTimerExpiry 3)
      (onLine .dialing fun ln => { ln with digitPos := some 1, drive := some 9, digitTimer := some 0 })
    t.digitEnable 3 = false ∧ (t.line 3).digitTimer = some 80 := by decide +kernel

/-- R87: a second BUSY cycle of 500 ms and 500 ms in a row gives the class BUSY. -/
theorem test_second_busy_cycle :
    let heard := onLine .awaitAnswer fun ln => { ln with
      toneRaw := true, toneQual := some 0
      classifier := { enabled := true, cls := .unknown, level := false, periodOn := false, elapsed := 500, whole := true
                      cycleOn := some 500, matchCount := 1, matchKind := some .busy } }
    ((after (.toneEnergyQualified 3) heard).line 3).classifier.cls = .busy
      ∧ ((after (.toneEnergyQualified 3) heard).line 3).reports = [{ cls := .busy, stale := false }] := by decide +kernel

/-- R148 and R153: the first post of an entry with batch count 1 raises SIG and writes the producer index. -/
theorem test_post_raises_sig :
    let s := { inEngine .running with
      report := { ReportWriter.initial with
        adopted := true, base := 0x3000, size := 4, header := 0x480
        outbox := [{ body := .done { tag := 0x0900, kind := 0x03, status := .done, data := none }, urgent := false }] } }
    let t := after (.reportPost .ok) s
    t.sigPin = true ∧ t.report.outbox = [] ∧ t.readProducer 0x480 = 1 ∧ Memory.read t.mem 0x3000 = 0x02
      ∧ Memory.read t.mem 0x3003 = 0x09 := by decide +kernel

/-- R109: a context due at the new uptime is handed to the pairing pass and granted a line of its mask. -/
theorem test_due_retry_is_granted :
    let t := after .uptimeTick { offLine .retryWait with uptime := 6 }
    (t.ctx 0).state = .onLine ∧ (t.ctx 0).attempts = 2 ∧ (t.ctx 0).currentLine = some 2 ∧ t.schedule = [] := by
  decide +kernel

/-- An idle block lets time pass: one millisecond of uptime (log 1). -/
theorem test_idle_step_counts :
    (match step (inEngine .running) with
      | .next t => t.uptimeMs
      | _ => 0) = 1 := by decide +kernel

/-! ## Witnesses: states and operands that meet the hypotheses of the obligations -/

/-- The lists, lines and outbox of a state are exact, in the terms the kernel evaluates. -/
def listsHold (s : State) : Prop :=
  (s.waiting.urgent.Nodup ∧ s.waiting.routine.Nodup
    ∧ (∀ c : CtxId, c ∈ s.waiting.urgent ↔ (s.ctx c).state = .pending ∧ (s.ctx c).origin = .urgent)
    ∧ ∀ c : CtxId, c ∈ s.waiting.routine ↔ (s.ctx c).state = .pending ∧ (s.ctx c).origin = .routine)
    ∧ s.schedule.Nodup
    ∧ (∀ c : CtxId, c ∈ s.schedule ↔ (s.ctx c).state = .retryWait)
    ∧ (∀ c : CtxId, (s.ctx c).due.isSome = true ↔ (s.ctx c).state = .retryWait)
    ∧ s.schedule.Pairwise fun c d => s.dueOf c ≤ s.dueOf d

theorem listsExact_reset (e : EngineState) : (inEngine e).ListsExact := by
  have h : listsHold State.reset := by unfold listsHold; decide +kernel
  exact h

theorem listsExact_pending : (offLine .pending).ListsExact := by
  have h : listsHold (offLine .pending) := by unfold listsHold; decide +kernel
  exact h

theorem listsExact_retryWait : (offLine .retryWait).ListsExact := by
  have h : listsHold (offLine .retryWait) := by unfold listsHold; decide +kernel
  exact h

theorem listsExact_onLine : (onLine .connected id).ListsExact := by
  have h : listsHold (onLine .connected id) := by unfold listsHold; decide +kernel
  exact h

theorem freeListExact_onLine : (onLine .connected id).FreeListExact := by
  unfold State.FreeListExact; decide +kernel

theorem linesExact_onLine : (onLine .connected id).LinesExact := by
  refine fun _ => ⟨by decide +kernel, fun l c h => ?_, fun c h => ⟨3, ?_⟩, fun l e h => ?_⟩
  · have key : ∀ (l : LineId) (c : CtxId), ((onLine .connected id).line l).held = some c →
        ((onLine .connected id).ctx c).state = .onLine ∧ ((onLine .connected id).ctx c).currentLine = some l := by
      decide +kernel
    exact key l c h
  · have key : ∀ c : CtxId, ((onLine .connected id).ctx c).state = .onLine →
        ((onLine .connected id).line 3).held = some c := by decide +kernel
    exact key c h
  · have key : ∀ l : LineId, (onLine .connected id).meter l = none := by decide +kernel
    rw [key l] at h
    cases h

theorem linesExact_offLine : (offLine .pending).LinesExact := by
  have held : ∀ l : LineId, ((offLine .pending).line l).held = none := by decide +kernel
  have meters : ∀ l : LineId, (offLine .pending).meter l = none := by decide +kernel
  refine fun _ => ⟨by decide +kernel, fun l c h => ?_, fun c h => ?_, fun l e h => ?_⟩
  · rw [held l] at h; cases h
  · have key : ∀ c : CtxId, ((offLine .pending).ctx c).state ≠ .onLine := by decide +kernel
    exact absurd h (key c)
  · rw [meters l] at h; cases h

theorem linesRun_onLine (st : LineState) (f : Line → Line) : (onLine st f).LinesRun := ⟨rfl, by simp [onLine, inEngine, State.withLine, State.withCtx]⟩

/-- A line held off-hook by the call of section 12.6. -/
theorem holds_seize : (onLine .seize id).Holds 3 0 := ⟨by decide +kernel, by decide +kernel, by decide +kernel, by decide +kernel⟩

theorem holds_iff (s : State) (l : LineId) (c : CtxId) :
    s.Holds l c ↔ (s.line l).held = some c ∧ (s.ctx c).state = .onLine ∧ (s.ctx c).currentLine = some l
      ∧ (s.line l).state.offHook = true :=
  ⟨fun h => ⟨h.1, h.2, h.3, h.4⟩, fun h => ⟨h.1, h.2.1, h.2.2.1, h.2.2.2⟩⟩

theorem ready_iff (s : State) (r : OrderRing) (need : Need) :
    s.ReadyToTake r need ↔ s.ctl.engine = .running ∧ (s.ring r).hasRecord = true ∧ s.hasFree need = true
      ∧ (s.ring (otherRing r)).state ≠ .active :=
  ⟨fun h => ⟨h.1, h.2, h.3, h.4⟩, fun h => ⟨h.1, h.2.1, h.2.2.1, h.2.2.2⟩⟩

theorem oneRecord_ready : oneRecord.ReadyToTake .urgent .doneSlot ∧ oneRecord.ReadyToTake .urgent .context := by
  simp only [ready_iff]; decide +kernel

/-- A CONNECTED call on L3 and a limited account. -/
def settled : State := (onLine .connected id).withAccount 5 { Account.cleared with limited := true, limit := 9 }

/-- A front command that leaves the retained content alone holds it. -/
theorem retainedHolds_of (s : State) (h : s.pending.head? ≠ some .vbatLoss)
    (k : ∀ vdd : VddCrossing, s.pending.head? ≠ some (.powerOnReset vdd)) : s.RetainedHolds :=
  ⟨fun e => absurd e h, fun vdd e => absurd e (k vdd)⟩

theorem retainedHolds_idle : settled.RetainedHolds :=
  retainedHolds_of _ (by decide +kernel) (fun _ h => by cases h)

/-- A fall of VDD with the battery present that cuts a post is at the front of the queue. -/
def falling : State := { settled with pending := [.powerOnReset { above := false, cut := .record 5 }] }

theorem retainedHolds_falling : falling.RetainedHolds := by
  refine ⟨fun h => by simp [falling] at h, fun vdd h => ?_⟩
  have e : vdd = { above := false, cut := .record 5 } := by simpa [falling] using h.symm
  subst e
  exact ⟨.inr rfl, by simp⟩

theorem policiesInRange_settled : settled.PoliciesInRange := by
  intro i p h
  have none' : ∀ i : Fin 8, settled.retained.policies[i] = none := by decide +kernel
  rw [none' i] at h
  cases h

theorem snapshotsInRange_settled : settled.SnapshotsInRange := by
  unfold State.SnapshotsInRange Policy.InRange; decide +kernel

/-- One state meets every invariant at once, steps, and has a limited account. -/
theorem witness_invariants :
    settled.MemoryCanonical ∧ settled.FreeListExact ∧ settled.ListsExact ∧ settled.OutboxExact ∧ settled.LinesExact
      ∧ settled.AttemptsInLimit ∧ settled.PoliciesInRange ∧ settled.SnapshotsInRange ∧ settled.TagsUnique
      ∧ (∀ l : LineId, (settled.line l).SignallingExact) ∧ settled.RingsBounded ∧ settled.SignalKept
      ∧ settled.retained.Sound ∧ settled.RetainedHolds
      ∧ ∃ t : State, step settled = .next t ∧ (t.account 5).limited = true := by
  refine ⟨rfl, freeListExact_onLine, listsExact_onLine, ?_, linesExact_onLine, ?_, policiesInRange_settled,
    snapshotsInRange_settled, ?_, ?_, ?_, ?_, ?_, retainedHolds_idle, ?_⟩
  · unfold State.OutboxExact State.refsTo; decide +kernel
  · unfold State.AttemptsInLimit; decide +kernel
  · unfold State.TagsUnique; decide +kernel
  · unfold Line.SignallingExact; decide +kernel
  · unfold State.RingsBounded Ring.Bounded; decide +kernel
  · unfold State.SignalKept; decide +kernel
  · unfold Retained.Sound; decide +kernel
  · refine ⟨_, rfl, ?_⟩
    decide +kernel

theorem witness_HaltedStaysFrozen :
    (inEngine .halted).ctl.engine = .halted ∧ Instr.calendarAdvance ≠ .reset ∧ Instr.calendarAdvance ≠ .resetnAssert
      ∧ (∀ vdd : VddCrossing, Instr.calendarAdvance ≠ .powerOnReset vdd)
      ∧ (inEngine .halted).report.holdTimer = .stopped :=
  ⟨rfl, by decide, by decide, fun _ => by simp, rfl⟩

theorem witness_RequestRecordReadsBack :
    let i := Instr.cancel .routine .ok { flags := 0xFF, tag := 0xFFFF, target := 0 }
    i.wellFormed = true ∧ i.take = some (.routine, .ok, TargetRec.cells 0x03 { flags := 0xFF, tag := 0xFFFF, target := 0 }) := by
  decide +kernel

/-! ### Commands of the control block -/

/-- RESETn held low. -/
def heldLow (s : State) : State := { s with power := { s.power with resetnLow := true } }

/-- A reset in force and none; CONTROL with one bit, with two, with RESET among others, with none; POST with bits 0 and 2; a
digit driven and none. -/
theorem witness_RegistersReadAndWrite :
    State.reset.inReset = false ∧ (heldLow State.reset).inReset = true
      ∧ (∀ v ∈ [(1 : Word), 2, 4, 0, 3, 0xF7], v.getLsbD 3 = false) ∧ (0xF : Word).getLsbD 3 = true
      ∧ (0xF1 : Word).extractLsb' 0 3 = 1 ∧ (3 : Word).extractLsb' 0 3 ∉ [1, 2, 4]
      ∧ (decodePost [] 5).length = 2
      ∧ ((onLine .dialing fun ln => { ln with drive := some 11 }).line 3).drive = some 11
      ∧ (State.reset.line 3).drive = none := by
  refine ⟨by decide +kernel, by decide +kernel, by simp, by decide, by decide, by decide, by decide +kernel,
    by decide +kernel, by decide +kernel⟩

/-- The hypotheses of RefusedCommandsSetErrorOnly in every engine state. -/
theorem witness_RefusedCommandsSetErrorOnly (e : EngineState) :
    (inEngine e).inReset = false ∧ (inEngine e).ctl.engine = e := ⟨rfl, rfl⟩

/-- A field of a setup block lies outside its valid values, as StartRefusesBadSetup lists them. -/
def invalidBlock (rd : Nat → Byte) : Bool :=
  [0, 4, 8, 12, 16, 20].any (fun k => (wordAt rd k).toNat % 64 != 0)
    || [24, 26, 28].any (fun k => !([4, 8, 16, 32, 64, 128, 256].contains (halfAt rd k).toNat))
    || decide ((rd 31).toNat = 0 ∨ 64 < (rd 31).toNat ∨ (14 < (rd 32).toNat ∧ (rd 32).toNat ≠ 255)
      ∨ (rd 33).toNat < 16 ∨ 96 < (rd 33).toNat)

/-- The setup block at address 0 after these stores. -/
def blockOf (stores : HostStores) : Nat → Byte := ((inEngine .ready).withStores stores).readAt 0

/-- An unaligned address, each kind of invalid field next to its range, and blocks at the ends of the ranges. -/
theorem witness_StartRefusesBadSetup :
    (inEngine .ready).inReset = false ∧ (inEngine .ready).ctl.engine = .ready ∧ StartBus.ok ≠ .setupBlock
      ∧ ({ (inEngine .ready).ctl with setupAddr := 1 }).setupAddr.toNat % 64 ≠ 0
      ∧ invalidBlock (blockOf (setupStores ++ [(0x14, 0x81)])) = true
      ∧ invalidBlock (blockOf (setupStores ++ [(0x1C, 5)])) = true
      ∧ invalidBlock (blockOf (setupStores ++ [(0x1F, 0)])) = true
      ∧ invalidBlock (blockOf (setupStores ++ [(0x1F, 65)])) = true
      ∧ invalidBlock (blockOf (setupStores ++ [(0x20, 15)])) = true
      ∧ invalidBlock (blockOf (setupStores ++ [(0x20, 254)])) = true
      ∧ invalidBlock (blockOf (setupStores ++ [(0x21, 15)])) = true
      ∧ invalidBlock (blockOf (setupStores ++ [(0x21, 97)])) = true
      ∧ invalidBlock (blockOf (setupStores ++ [(0x1F, 64), (0x20, 14), (0x21, 16)])) = false
      ∧ invalidBlock (blockOf (setupStores ++ [(0x1C, 0), (0x1D, 1), (0x21, 96)])) = false := by decide +kernel

/-- The block at SETUP_ADDR gives parameters whose report ring is adopted. -/
def adoptable (stores : HostStores) : Bool :=
  let m := (inEngine .ready).withStores stores
  match setupOf (m.readAt (inEngine .ready).ctl.setupAddr) with
  | some p => decide ((m.readProducer p.reportHeader - m.readConsumer p.reportHeader).toNat ≤ p.reportSize)
  | none => false

/-- A report ring that is empty, and one as full as its size allows. -/
theorem witness_StartAdoptsTheRings :
    (inEngine .ready).inReset = false ∧ (inEngine .ready).ctl.engine = .ready
      ∧ (inEngine .ready).ctl.setupAddr.toNat % 64 = 0 ∧ adoptable setupStores = true
      ∧ adoptable (setupStores ++ [(0x480, 4)]) = true ∧ adoptable (setupStores ++ [(0x480, 5)]) = false := by
  decide +kernel

/-- READY; a FAULTED ring; a producer index 4 ahead in a ring of 4 slots; one 5 ahead. -/
theorem witness_OrderPostReadsProducer :
    let read := fun (stores : HostStores) =>
      (oneRecord.withStores stores).readProducer (oneRecord.ring .urgent).header - (oneRecord.ring .urgent).consumer
    oneRecord.inReset = false ∧ (inEngine .ready).ctl.engine ≠ .running
      ∧ (({ oneRecord with intake := { oneRecord.intake with urgent := ringOf 0 .faulted } }).ring .urgent).state
        = .faulted
      ∧ oneRecord.ctl.engine = .running ∧ (oneRecord.ring .urgent).state ≠ .faulted
      ∧ (read [(0x400, 4)]).toNat ≤ (oneRecord.ring .urgent).size
      ∧ (oneRecord.ring .urgent).size < (read [(0x400, 5)]).toNat := by decide +kernel

/-- An adopted report ring with two records that the host has not consumed. -/
def adopted : State :=
  { inEngine .running with
    report := { ReportWriter.initial with
      adopted := true, base := 0x3000, size := 4, header := 0x480, producer := 2, batch := 2
      outbox := [{ body := .callEnd 0, urgent := false }] } }

/-- CHECKING; a ring not adopted; the cached consumer index, the producer index, and an index past it. -/
theorem witness_ReportBitTakesConsumer :
    let behind := fun (read : Half) => (adopted.report.producer - read).toNat
    adopted.inReset = false ∧ adopted.ctl.engine ∈ [.ready, .running, .draining, .aborting]
      ∧ adopted.report.adopted = true ∧ (inEngine .checking).ctl.engine ∉ [.ready, .running, .draining, .aborting]
      ∧ (inEngine .ready).report.adopted ≠ true
      ∧ (adopted.withStores [(0x484, 2)]).readConsumer adopted.report.header = 2
      ∧ behind 0 ≤ behind adopted.report.cachedConsumer ∧ behind 2 ≤ behind adopted.report.cachedConsumer
      ∧ ¬ behind 3 ≤ behind adopted.report.cachedConsumer := by decide +kernel

/-- The report writer with SIG high and so many posts since the raise. -/
def raised (unsignalled : Nat) (timer : HoldTimer) : ReportWriter :=
  { adopted.report with sigPending := true, unsignalled := unsignalled, holdTimer := timer }

/-- No post, one short of the batch count, the batch count, and one post with the timer EXPIRED. -/
theorem witness_AcknowledgeJudgesThePosts :
    let due := fun (r : ReportWriter) => 0 < r.unsignalled ∧ (r.holdTimer = .expired ∨ r.batch ≤ r.unsignalled)
    adopted.inReset = false ∧ adopted.report.sigPending = false ∧ (raised 0 .stopped).sigPending = true
      ∧ ¬ due (raised 0 .expired) ∧ ¬ due (raised 1 (.running 5)) ∧ due (raised 2 (.running 5)) ∧ due (raised 1 .expired)
      ∧ adopted.ctl.engine ≠ .halted ∧ (inEngine .halted).ctl.engine = .halted := by decide +kernel

theorem witness_QuiesceEndsWaitingCalls :
    (offLine .pending).inReset = false ∧ (offLine .pending).ctl.engine = .running ∧ (offLine .pending).ListsExact
      ∧ (offLine .retryWait).ListsExact ∧ (inEngine .running).ListsExact :=
  ⟨rfl, rfl, listsExact_pending, listsExact_retryWait, listsExact_reset _⟩

theorem witness_AbortEndsActiveCalls :
    let draining := { onLine .connected id with ctl := (inEngine .draining).ctl }
    (onLine .connected id).inReset = false ∧ (onLine .connected id).ctl.engine = .running
      ∧ draining.ctl.engine = .draining ∧ (onLine .connected id).ListsExact ∧ (onLine .connected id).LinesExact
      ∧ draining.ListsExact ∧ draining.LinesExact :=
  ⟨rfl, rfl, rfl, listsExact_onLine, linesExact_onLine, listsExact_onLine, fun _ => linesExact_onLine (by decide +kernel)⟩

theorem witness_WindingDownEndsInReady :
    (∀ e : EngineState, (inEngine e).ctl.engine = e ∧ (inEngine e).report.outbox = []
        ∧ (∀ c : CtxId, ((inEngine e).ctx c).state.isActive = false)
        ∧ ∀ l : LineId, ((inEngine e).line l).state ∉ [.seize, .dialing, .awaitAnswer, .connected])
      ∧ adopted.report.outbox ≠ [] ∧ ((onLine .seize id).ctx 0).state.isActive = true
      ∧ ((onLine .seize id).line 3).state = .seize := by
  refine ⟨fun e => ⟨rfl, rfl, ?_, ?_⟩, by decide +kernel⟩
  · have h : ∀ c : CtxId, (State.reset.ctx c).state.isActive = false := by decide +kernel
    exact h
  · have h : ∀ l : LineId, (State.reset.line l).state ∉ [LineState.seize, .dialing, .awaitAnswer, .connected] := by
      decide +kernel
    exact h

theorem witness_ResetsActAndEnd :
    let rising := { State.reset with power := { State.reset.power with powerReset := true } }
    let fallen := { State.reset with power := { State.reset.power with powerReset := true, vddAbove := false } }
    State.reset.inReset = false ∧ (heldLow State.reset).inReset = true ∧ adopted.mayPost = true
      ∧ (rising.power.powerReset = true ∧ rising.power.vddAbove = true)
      ∧ (State.reset.power.powerReset = false ∧ fallen.power.vddAbove = false)
      ∧ (heldLow State.reset).power.resetnLow = true ∧ State.reset.power.resetnLow = false := by decide +kernel

theorem witness_CheckJudgesEachTable :
    State.reset.ctl.engine = .checking ∧ State.reset.inReset = false := by decide +kernel

theorem witness_BatteryLossFreesTheContent :
    State.reset.power.vddAbove = true
      ∧ ({ State.reset with power := { State.reset.power with vddAbove := false } }).power.vddAbove = false := by
  decide +kernel

/-- A CANCEL record from the URGENT ring. -/
def cancelRecord : TargetRec := { flags := 0, tag := 0x0900, target := 0x0217 }

/-- A setup block whose report ring stands 5 records ahead in 4 slots. -/
def malformedStores : HostStores := setupStores ++ [(0x480, 5)]

/-! ### Takes -/

/-- A PLACE_CALL record for the number of section 12.6 without a policy. -/
def placeRecord : PlaceCallRec :=
  { flags := 2, tag := 0x0300, account := 31, mask := 0, policy := 255, digitCount := 4, answerTimeout := 180
    maxDuration := 0
    digits := (((Vector.replicate 24 0).set 0 9).set 1 13).set 2 2 }

/-- The rings of one record with the ROUTINE ring ACTIVE too, so many records ahead, and a streak counter. -/
def twoRings (routine : Half) (streak : Nat) : State :=
  { oneRecord with intake := { urgent := ringOf 1 .active, routine := ringOf routine .active, streak := streak } }

/-- Every context is taken, so that a head of kind 01h, here that of the ROUTINE ring, lacks its resource. -/
def lacking (s : State) : State :=
  { s with
    ctxs := Vector.replicate 48 { Context.cleared with state := .ended }, mem := Memory.writeCells 0x1000 [(0, 0x01)] [] }

/-- POST bits that act, START in READY with a good and with a malformed report ring, a take with each error, the
other ring EMPTY and ACTIVE, an entry to post. -/
theorem witness_BusErrorHaltsThePart :
    (adopted.inReset = false ∧ adopted.ctl.engine = .running ∧ (adopted.ring .routine).state ≠ .faulted
      ∧ adopted.ctl.engine ∈ [.ready, .running, .draining, .aborting] ∧ adopted.report.adopted = true)
      ∧ ((inEngine .ready).inReset = false ∧ (inEngine .ready).ctl.engine = .ready
        ∧ (inEngine .ready).ctl.setupAddr.toNat % 64 = 0 ∧ adoptable setupStores = true
        ∧ (setupOf (((inEngine .ready).withStores malformedStores).readAt (inEngine .ready).ctl.setupAddr)).isSome = true
        ∧ adoptable malformedStores = false)
      ∧ (∀ bus ∈ [TakeBus.readError, .writeError],
        (Instr.cancel .urgent bus cancelRecord).take = some (.urgent, bus, cancelRecord.cells 0x03)
          ∧ (Instr.cancel .urgent bus cancelRecord).wellFormed = true)
      ∧ oneRecord.ctl.engine = .running ∧ (oneRecord.ring .urgent).hasRecord = true
      ∧ (∀ s ∈ [oneRecord, twoRings 0 0, twoRings 2 3], s.ctl.engine = .running
        ∧ s.Takeable .urgent (needOfKind (overlay (cancelRecord.cells 0x03) (fun _ => 0) 0)))
      ∧ (adopted.mayPost = true ∧ adopted.report.outbox = { body := .callEnd 0, urgent := false } :: []) :=
  ⟨by decide +kernel, by decide +kernel, by decide +kernel, rfl, by decide +kernel,
    by unfold State.Takeable; decide +kernel, rfl, rfl⟩

/-- The other ring EMPTY, ACTIVE with a record at either end of the streak, ACTIVE without one. -/
theorem witness_TakeStepsTheRing :
    ((Instr.cancel .urgent .ok cancelRecord).wellFormed = true
        ∧ (Instr.cancel .urgent .ok cancelRecord).take = some (.urgent, .ok, cancelRecord.cells 0x03)
        ∧ (Instr.placeCall .urgent .ok placeRecord).wellFormed = true
        ∧ (Instr.placeCall .urgent .ok placeRecord).take = some (.urgent, .ok, placeRecord.cells))
      ∧ (∀ s ∈ [oneRecord, twoRings 0 0, twoRings 2 3], s.ctl.engine = .running
        ∧ s.Takeable .urgent (needOfKind (overlay (cancelRecord.cells 0x03) (fun _ => 0) 0))
        ∧ s.Takeable .urgent (needOfKind (overlay placeRecord.cells (fun _ => 0) 0)))
      ∧ (twoRings 2 4).Takeable .routine .doneSlot ∧ oneRecord.MemoryCanonical ∧ (twoRings 2 3).MemoryCanonical := by
  refine ⟨by decide +kernel, ?_, ?_, rfl, rfl⟩
  all_goals unfold State.Takeable; decide +kernel

/-- No done slot is free. -/
def noSlot (s : State) : State :=
  { s with report := { s.report with
      outbox := List.replicate 8
        { body := .done { tag := 0, kind := 0, status := .done, data := none }, urgent := false } } }

/-- Not RUNNING, a ring not ACTIVE, one without a record, a head without a done slot, the other ring ACTIVE and not. -/
theorem witness_RecordNotTaken :
    (Instr.cancel .urgent .ok cancelRecord).take = some (.urgent, .ok, cancelRecord.cells 0x03)
      ∧ (Instr.cancel .urgent .ok cancelRecord).wellFormed = true ∧ TakeBus.writeError ≠ .readError
      ∧ (inEngine .draining).ctl.engine ≠ .running ∧ (oneRecord.ring .routine).state ≠ .active
      ∧ ((ringOf 0 .active).state = .active ∧ (ringOf 0 .active).consumer = (ringOf 0 .active).cachedProducer)
      ∧ oneRecord.ctl.engine = .running
      ∧ ∀ s ∈ [noSlot oneRecord, noSlot (twoRings 2 0)], (s.ring .urgent).hasRecord = true
        ∧ s.hasFree (needOfKind (overlay (cancelRecord.cells 0x03) (fun _ => 0) 0)) = false := by decide +kernel

/-- The ROUTINE ring ACTIVE without a record, with one whose resource is free, with one that lacks a context; the streak
counter at 0, 3 and 4 for a record of either ring. -/
theorem witness_ArbiterChoosesARing :
    (∀ r ∈ [OrderRing.urgent, .routine], (Instr.cancel r .ok cancelRecord).wellFormed = true
        ∧ (Instr.cancel r .ok cancelRecord).take = some (r, .ok, cancelRecord.cells 0x03)
        ∧ ∀ streak ∈ [0, 3, 4],
          let s := twoRings 2 streak
          let m := { s with mem := Memory.writeCells (s.ring r).headAddr (cancelRecord.cells 0x03) s.mem }
          s.ctl.engine = .running ∧ s.Takeable r (needOfKind (overlay (cancelRecord.cells 0x03) (fun _ => 0) 0))
            ∧ s.Takeable (otherRing r) (m.headNeed (otherRing r)))
      ∧ (let s := twoRings 0 0
        s.Takeable .urgent .doneSlot ∧ (s.ring .routine).state = .active
          ∧ (s.ring .routine).consumer = (s.ring .routine).cachedProducer)
      ∧ (let s := lacking { twoRings 2 0 with
          intake := { (twoRings 2 0).intake with urgent := { ringOf 1 .active with base := 0x2000 } } }
        s.Takeable .urgent .doneSlot ∧ (s.ring .routine).state = .active
          ∧ (s.ring .routine).consumer ≠ (s.ring .routine).cachedProducer
          ∧ { s with mem := Memory.writeCells (s.ring .urgent).headAddr (cancelRecord.cells 0x03) s.mem }.headNeed
            .routine = .context
          ∧ s.hasFree .context = false) := by
  refine ⟨?_, ?_, ?_⟩
  all_goals unfold State.Takeable; decide +kernel

theorem witness_AccountOperationsActAtTheTake : oneRecord.ReadyToTake .urgent .doneSlot := oneRecord_ready.1

/-- A LOAD_PREFIX, a LOAD_BAND and a SET_POLICY record with every field that counts at an end of its range. -/
def prefixRecord : LoadPrefixRec :=
  { tag := 1, index := 63, present := 1, length := 12, cls := 15, symbols := Vector.replicate 12 11 }

def bandRecord : LoadBandRec :=
  { tag := 1, cls := 14, band := 3, present := 1, daySet := 2, start := 86399, period := 3600, unitCharge := 65535
    setupCharge := 0 }

def policyRecord (limit count : Byte) (interval : Half) : SetPolicyRec :=
  { tag := 1, index := 7, present := 1, limit := limit, count := count, outcomes := 31
    intervals := Vector.replicate 6 interval }

theorem witness_TablesTakeValidEntries :
    oneRecord.ReadyToTake .urgent .doneSlot
      ∧ (prefixRecord.index.toNat = (63 : Fin 64).val ∧ prefixRecord.present = 1
        ∧ prefixRecord.length.toNat = (List.replicate 12 (11 : Fin 12)).length
        ∧ prefixRecord.symbols.toList.take 12 = symbolBytes (List.replicate 12 11)
        ∧ prefixRecord.cls = PrefixClass.barred.byte)
      ∧ (bandRecord.cls.toNat = (14 : Fin 15).val ∧ bandRecord.band.toNat = (3 : Fin 4).val ∧ bandRecord.present = 1
        ∧ bandRecord.daySet = DaySet.restdays.byte ∧ bandRecord.start.toNat ≤ 86399 ∧ 1 ≤ bandRecord.period.toNat
        ∧ bandRecord.period.toNat ≤ 3600)
      ∧ ((policyRecord 8 6 3600).index.toNat = (7 : Fin 8).val ∧ (policyRecord 8 6 3600).present = 1
        ∧ ¬ (policyRecord 8 6 3600).OutOfRange ∧ ¬ (policyRecord 1 1 5).OutOfRange)
      ∧ (86399 : Word).toNat ≤ 86399 := by
  refine ⟨oneRecord_ready.1, by decide +kernel, by decide +kernel, ⟨by decide, by decide, ?_, ?_⟩, by decide⟩
  all_goals
    intro h
    simp [SetPolicyRec.OutOfRange, policyRecord] at h

/-- A SET_LINE record for L3 with every field in its range. -/
def lineRecord (enable : Byte) : SetLineRec :=
  { tag := 1, line := 3, enable := enable, dialToneRequired := 1, qualify := 16, seizeTimeout := 20, answerDefault := 10
    toneTime := 40, gapTime := 200, clearGuard := 4000 }

/-- Records with one field next to its range. -/
theorem witness_BadRequestsChangeNothing :
    oneRecord.ReadyToTake .urgent .doneSlot
      ∧ (32 ≤ (32 : Byte).toNat ∧ (0 : Byte).toNat = 0 ∧ 5 < (6 : Byte).toNat ∧ 1 < (2 : Byte).toNat
        ∧ (0x05 : Byte) ∉ knownKinds ∧ (0x16 : Byte) ∉ knownKinds ∧ 86399 < (86400 : Word).toNat)
      ∧ (¬ ({ lineRecord 1 with line := 8 }).InRange ∧ ¬ ({ lineRecord 1 with qualify := 15 }).InRange
        ∧ ¬ ({ lineRecord 1 with clearGuard := 4001 }).InRange)
      ∧ ({ prefixRecord with index := 64 }).OutOfRange ∧ ({ prefixRecord with length := 13 }).OutOfRange
      ∧ ({ bandRecord with start := 86400 }).OutOfRange ∧ (policyRecord 9 6 5).OutOfRange :=
  ⟨oneRecord_ready.1, by decide +kernel, by simp only [SetLineRec.InRange]; decide +kernel, .inl (by decide),
    .inr (.inr ⟨rfl, .inr (.inl (by decide))⟩), .inr (.inr (.inr ⟨rfl, .inr (.inl (by decide))⟩)),
    .inr (.inr ⟨rfl, .inr (.inl (by decide))⟩)⟩

/-- L3 in every state, with the enable field 0 and 1. -/
theorem witness_SetLineActsByLineState :
    oneRecord.ReadyToTake .urgent .doneSlot ∧ (lineRecord 0).InRange ∧ (lineRecord 1).InRange
      ∧ (lineRecord 0).line.toNat = (3 : LineId).val
      ∧ ∀ st ∈ [LineState.idle, .disabled, .fault, .ringing, .clearing],
        ((oneRecord.withLine 3 { oneRecord.line 3 with state := st }).line 3).state = st
          ∧ (oneRecord.withLine 3 { oneRecord.line 3 with state := st }).ReadyToTake .urgent .doneSlot := by
  simp only [ready_iff, SetLineRec.InRange]; decide +kernel

/-- The state `s` with the order rings of one record. -/
def withRecord (s : State) : State := { s with intake := oneRecord.intake }

/-- The target PENDING, in RETRY_WAIT, on a line, ENDED and unknown. -/
theorem witness_CancelEndsItsTarget :
    (withRecord (offLine .pending)).ReadyToTake .urgent .doneSlot
      ∧ (withRecord (offLine .retryWait)).ReadyToTake .urgent .doneSlot
      ∧ (withRecord (onLine .dialing id)).ReadyToTake .urgent .doneSlot
      ∧ (offLine .pending).CarriesAlone 0 0x0217 ∧ ((offLine .pending).ctx 0).state = .pending
      ∧ (offLine .retryWait).CarriesAlone 0 0x0217 ∧ ((offLine .retryWait).ctx 0).state = .retryWait
      ∧ (onLine .dialing id).CarriesAlone 0 0x0217 ∧ ((onLine .dialing id).ctx 0).state = .onLine
      ∧ ((onLine .dialing id).ctx 0).currentLine = some 3 ∧ ((onLine .dialing id).line 3).state.offHook = true
      ∧ (offLine .ended).TagUnused 0x0217 ∧ oneRecord.TagUnused 0x0217 := by
  simp only [ready_iff, State.CarriesAlone, State.TagUnused]; decide +kernel

/-- The target connected either way, dialling, PENDING, ENDED and unknown. -/
theorem witness_ReleaseEndsAConnectedCall :
    (∀ st ∈ [LineState.connected, .connectedIn, .dialing],
        (withRecord (onLine st id)).ReadyToTake .urgent .doneSlot ∧ (onLine st id).CarriesAlone 0 0x0217
          ∧ ((onLine st id).ctx 0).state = .onLine ∧ ((onLine st id).ctx 0).currentLine = some 3
          ∧ ((onLine st id).line 3).state = st)
      ∧ (offLine .pending).CarriesAlone 0 0x0217 ∧ ((offLine .pending).ctx 0).state ≠ .onLine
      ∧ (offLine .ended).TagUnused 0x0217 ∧ oneRecord.TagUnused 0x0217 := by
  simp only [ready_iff, State.CarriesAlone, State.TagUnused]; decide +kernel

/-- The prefix table of section 8.2 without a default class, class 1 with bands, policy 2 present, and a PENDING call with
tag 0217h. -/
def tables : State :=
  let s := { prefixes82 with ctl := (inEngine .running).ctl }
  { s.withCtx 0 { call with state := .pending } with
    retained := { s.retained with
      bands := (bands83 0 0 true).retained.bands
      policies := s.retained.policies.set 2 (some { limit := 3, intervals := [30], outcomes := 1 }) } }

/-- A PLACE_CALL record for a number of one digit, with policy 2. -/
def shortRecord (digit : Byte) : PlaceCallRec :=
  { placeRecord with policy := 2, digitCount := 1, digits := Vector.replicate 24 digit }

/-- Fields next to their ranges, a present policy, the policy NONE, a tag in use; a barred number and one without a class; a class without and one with a band; a mask without and one with a usable line. -/
theorem witness_PlaceCallChecksInOrder :
    ¬ ({ shortRecord 5 with account := 32 }).FieldsInRange ∧ ¬ ({ shortRecord 5 with answerTimeout := 9 }).FieldsInRange
      ∧ ¬ ({ shortRecord 5 with digitCount := 25 }).FieldsInRange
      ∧ (shortRecord 5).FieldsInRange ∧ tables.NamesPolicy (shortRecord 5) { limit := 3, intervals := [30], outcomes := 1 }
      ∧ tables.NamesPolicy placeRecord { limit := 1, intervals := [], outcomes := 0 }
      ∧ (¬ tables.TagUnused 0x0217 ∧ tables.TagUnused 0x0300)
      ∧ tables.ResolvesTo [5] none ∧ prefixes82.ResolvesTo [5] (some 1)
      ∧ tables.Decides 2 { symbols := [0, 0], cls := .barred } [0, 0, 3] ∧ ¬ State.reset.ClassHasBand 2 ∧ tables.ClassHasBand 1
      ∧ tables.MaskHasUsable 0x80 ∧ ¬ (noLines tables).MaskHasUsable 0xFF := by
  have noMatch : ∀ i : Fin 64,
      (tables.retained.prefixes[i].map fun e => (e.symbols.map fun d => d.val).isPrefixOf [5]).getD false = false := by
    decide +kernel
  have shorter : ∀ j : Fin 64,
      (tables.retained.prefixes[j].map fun e => !(e.symbols.map fun d => d.val).isPrefixOf [0, 0, 3]
        || decide (e.symbols.length < 2 ∨ (e.symbols.length = 2 ∧ 2 ≤ j))).getD true = true := by
    decide +kernel
  refine ⟨fun h => ?_, fun h => ?_, fun h => ?_, ?_, ?_, ?_, ?_, ?_, ?_, ?_, ?_, ?_, ?_, ?_⟩
  · exact absurd h.1 (by decide)
  · exact absurd h.2.2.1 (by decide)
  · exact absurd h.2.2.2.2.1 (by decide)
  · unfold PlaceCallRec.FieldsInRange; decide +kernel
  · exact .inr ⟨2, by decide, by decide +kernel⟩
  · exact .inl ⟨by decide, rfl⟩
  · unfold State.TagUnused; decide +kernel
  · refine .inr ⟨fun i e h m => ?_, by decide +kernel⟩
    have k := noMatch i
    rw [h] at k
    have m' := List.isPrefixOf_iff_prefix.mpr m
    simp_all
  · refine .inr ⟨fun i e h m => ?_, by decide +kernel⟩
    have k := noMatch i
    rw [show tables.retained.prefixes[i] = some e from h] at k
    have m' := List.isPrefixOf_iff_prefix.mpr m
    simp_all
  · refine ⟨by decide +kernel, ⟨[3], rfl⟩, fun j f h m => ?_⟩
    have k := shorter j
    rw [h] at k
    have m' := List.isPrefixOf_iff_prefix.mpr m
    simp_all
  · unfold State.ClassHasBand; decide +kernel
  · unfold State.ClassHasBand; decide +kernel
  · unfold State.MaskHasUsable; decide +kernel
  · unfold State.MaskHasUsable; decide +kernel

/-- Intake takes the record into C0, with no class for its number. -/
theorem witness_PlaceCallIsDecidedAtTheTake :
    oneRecord.ReadyToTake .urgent .context ∧ oneRecord.LowestFree 0
      ∧ (oneRecord.judgePlaceCall placeRecord).failure = some .noTariff
      ∧ (withRecord { tables with
          ctl := { tables.ctl with setup := { tables.ctl.setup with defaultClass := some 1 } } }).ReadyToTake .urgent .context
      ∧ (withRecord tables).LowestFree 1
      ∧ ({ tables with
          ctl := { tables.ctl with setup := { tables.ctl.setup with defaultClass := some 1 } } }.judgePlaceCall
          (shortRecord 5)).failure = none := by
  simp only [ready_iff, State.LowestFree]; decide +kernel

/-- L2 RINGING with a qualified pattern. -/
def ringing (p : LoopPattern) : State :=
  { oneRecord.withLine 2 { State.reset.line 2 with state := .ringing, loopPattern := p } with
    freeLines := [0, 1, 3, 4, 5, 6, 7] }

/-- An ACCEPT record for a line. -/
def acceptRecord (line : Byte) : AcceptRec := { flags := 3, tag := 0x0217, line := line, maxDuration := 1 }

theorem witness_AcceptAnswersARingingLine :
    8 ≤ (acceptRecord 8).line.toNat ∧ (acceptRecord 7).line.toNat < 8
      ∧ ¬ (withRecord (onLine .dialing id)).TagUnused 0x0217
      ∧ (withRecord (onLine .dialing id)).ReadyToTake .urgent .context ∧ (withRecord (onLine .dialing id)).LowestFree 1
      ∧ (acceptRecord 2).line.toNat = (2 : LineId).val ∧ (oneRecord.line 2).state ≠ .ringing
      ∧ ∀ p ∈ [LoopPattern.noLoop, .normal, .reversed, .invalid],
        (ringing p).ReadyToTake .urgent .context ∧ (ringing p).LowestFree 0 ∧ (ringing p).TagUnused 0x0217
          ∧ ((ringing p).line 2).state = .ringing ∧ ((ringing p).line 2).loopPattern = p := by
  simp only [ready_iff, State.LowestFree, State.TagUnused]; decide +kernel

/-! ### Happenings at a line -/

/-- Lines that run and lines that do not; an empty queue with nothing due, with one happening due and with two; a CONNECTED
line with nothing due. -/
theorem witness_RawInputsAreTimed :
    (inEngine .ready).LinesRun ∧ ¬ (inEngine .halted).LinesRun ∧ (onLine .connected id).pending = []
      ∧ (onLine .connected id).dueNow = [] ∧ (onLine .connected id).LinesRun ∧ (onLine .connected id).LinesExact
      ∧ ((onLine .connected id).line 3).held = some 0 ∧ ((onLine .connected id).line 3).state = .connected
      ∧ (inEngine .halted).dueNow = []
      ∧ { inEngine .ready with uptimeMs := 1000 }.dueNow = [.uptimeTick]
      ∧ { inEngine .checking with uptimeMs := 1000 }.dueNow = [.retainedCheckDone, .uptimeTick] := by
  refine ⟨by unfold State.LinesRun; decide +kernel, by unfold State.LinesRun; decide +kernel, rfl, by decide +kernel,
    linesRun_onLine _ _, linesExact_onLine, by decide +kernel, by decide +kernel, by decide +kernel, by decide +kernel,
    by decide +kernel⟩

/-- L3 in a state with its loop pattern about to be qualified. -/
def sensing (st : LineState) (a b : Bool) : State :=
  onLine st fun ln => { ln with senseA := a, senseB := b, loopQual := some 0 }

/-- Every line state with each of the four patterns on its inputs, the line held where it is off-hook. -/
theorem witness_QualifiedPatternActsByLineState :
    ((onLine .seize id).line 3).loopQual = none
      ∧ (∀ a b : Bool, ∀ st ∈ [LineState.idle, .seize, .dialing, .awaitAnswer, .connected, .answering, .connectedIn,
          .clearing, .ringing, .disabled, .fault],
        ((sensing st a b).line 3).state = st ∧ ((sensing st a b).line 3).loopQual ≠ none
          ∧ ((sensing st a b).line 3).dialToneWait = false ∧ ((sensing st a b).line 3).working.dialToneRequired = true
          ∧ (st.offHook = true → (sensing st a b).Holds 3 0) ∧ (sensing st a b).LinesRun)
      ∧ ((sensing .seize true false).ctx 0).symbols[0]? = some (.tone 9)
      ∧ (patternOf false false = .noLoop ∧ patternOf true false = .normal ∧ patternOf false true = .reversed
        ∧ patternOf true true = .invalid) := by
  simp only [holds_iff, State.LinesRun]; decide +kernel

/-- Account 5 with so much left below its limit. -/
def withRoom (room : Nat) (s : State) : State :=
  s.withAccount 5 { Account.cleared with limited := true, limit := 100, total := 100 - room }

/-- The answer with class 1 priced at a setup charge of 1 and a unit charge of 2: no room, room for the setup charge, room
for both. -/
theorem witness_AnswerIsMetered :
    let s := fun (room : Nat) => { withRoom room (sensing .awaitAnswer false true) with
      retained := { (withRoom room (sensing .awaitAnswer false true)).retained with
        bands := (bands83 14 30000 true).retained.bands
        calendar := { day := 14, second := 30000, ms := 0, valid := true } } }
    (∀ room ∈ [0, 1, 2, 3], (s room).LinesRun ∧ (s room).Holds 3 0 ∧ ((s room).line 3).state = .awaitAnswer
        ∧ ((s room).line 3).loopQual ≠ none
        ∧ patternOf ((s room).line 3).senseA ((s room).line 3).senseB = .reversed
        ∧ ((s room).ctx 0).account = some 5
        ∧ ((s room).priceNow ((s room).ctx 0).tariff).setupCharge = 1
        ∧ ((s room).priceNow ((s room).ctx 0).tariff).unitCharge = 2)
      ∧ ¬ ((s 0).account 5).Pays 1 ∧ ((s 1).account 5).Pays 1 ∧ ¬ (((s 2).account 5).charged 1).Pays 2
      ∧ ((s 3).account 5).Pays 1 ∧ (((s 3).account 5).charged 1).Pays 2 := by
  simp only [holds_iff, State.LinesRun, Account.Pays]; decide +kernel

/-- L3 in AWAIT_ANSWER with a tone level about to be qualified on a given classifier. -/
def hearing (raw : Bool) (k : Classifier) : State :=
  onLine .awaitAnswer fun ln => { ln with toneRaw := raw, toneQual := some 0, classifier := k }

/-- A classifier in an OFF period of so many ms behind a burst of so many. -/
def gapAfter (on off : Nat) : Classifier :=
  { enabled := true, cls := .unknown, level := false, periodOn := false, elapsed := off, whole := true
    cycleOn := some on, matchCount := 1, matchKind := some .busy }

/-- A disabled classifier, one in an ON and one in an OFF period, and cycles at the ends of the windows of R86. -/
theorem witness_ClassifierMeasuresTheTone :
    ((onLine .awaitAnswer id).line 3).toneQual = none ∧ (onLine .awaitAnswer id).LinesRun
      ∧ (∀ k ∈ [(350, 650), (349, 150), (700, 2000), (1500, 5000), (500, 250), (1600, 3000)],
        let ln := (hearing true (gapAfter k.1 k.2)).line 3
        ln.toneQual ≠ none ∧ ln.classifier.enabled = true ∧ ln.classifier.level = false ∧ ln.toneRaw = true
          ∧ ln.classifier.whole = true ∧ ln.classifier.cycleOn = some k.1 ∧ ln.classifier.periodOn = false)
      ∧ ((hearing true Classifier.disabled).line 3).classifier.enabled = false
      ∧ (let ln := (hearing false { gapAfter 0 999 with level := true, periodOn := true, cycleOn := none }).line 3
        ln.toneQual ≠ none ∧ ln.classifier.enabled = true ∧ ln.classifier.level = true ∧ ln.toneRaw = false
          ∧ ln.classifier.periodOn = true ∧ ln.classifier.cls ≠ .dial)
      ∧ ((hearing true { gapAfter 0 0 with cycleOn := none }).line 3).classifier.cycleOn = none := by
  simp only [State.LinesRun]; decide +kernel

/-- L3 in a state with a ring about to be qualified, the engine in a state. -/
def ringHeard (e : EngineState) (st : LineState) : State :=
  { onLine st fun ln => { ln with ringRaw := true, ringQual := some 0 } with ctl := (inEngine e).ctl }

theorem witness_QualifiedRingActsByLineState :
    ∀ e ∈ [EngineState.ready, .running, .draining], ∀ st ∈ [LineState.idle, .seize, .dialing, .awaitAnswer, .connected,
        .answering, .connectedIn, .clearing, .ringing, .disabled, .fault],
      (ringHeard e st).LinesRun ∧ (ringHeard e st).ctl.engine = e ∧ ((ringHeard e st).line 3).state = st
        ∧ ((ringHeard e st).line 3).ringQual ≠ none ∧ ((ringHeard e st).line 3).ringRaw = true
        ∧ ((ringHeard e st).line 3).ringLevel = false ∧ (st = .seize → (ringHeard e st).Holds 3 0) := by
  simp only [holds_iff, State.LinesRun]; decide +kernel

/-- Both values of disable-pending, on a CLEARING and on a RINGING line whose timer runs; stopped timers. -/
theorem witness_LineReturnsToRest :
    (∀ pending : Bool, ∀ st ∈ [LineState.clearing, .ringing],
        let s := onLine st fun ln => { ln with
          ringLevel := true, ringQual := some 0, clearGuard := some 0, ringGap := some 0, disablePending := pending }
        s.LinesRun ∧ (s.line 3).state = st ∧ (s.line 3).ringQual ≠ none ∧ (s.line 3).ringRaw = false
          ∧ (s.line 3).ringLevel = true ∧ (s.line 3).clearGuard ≠ none ∧ (s.line 3).ringGap ≠ none
          ∧ (s.line 3).disablePending = pending)
      ∧ ((onLine .ringing id).line 3).clearGuard = none ∧ ((onLine .ringing id).line 3).ringGap = none := by
  simp only [State.LinesRun]; decide +kernel

/-- L3 in SEIZE with every timer running and a qualified pattern. -/
def timed (p : LoopPattern) : State :=
  onLine .seize fun ln => { ln with
    loopPattern := p, loopTimer := some 0, dialToneTimer := some 0, answerTimer := some 0, maxDurationTimer := some 0
    farClearTimer := some 0 }

theorem witness_AttemptTimersEndTheAttempt :
    (timed .normal).LinesRun ∧ (timed .normal).Holds 3 0 ∧ ((timed .normal).line 3).loopTimer ≠ none
      ∧ ((timed .normal).line 3).dialToneTimer ≠ none ∧ ((timed .normal).line 3).answerTimer ≠ none
      ∧ ((onLine .seize id).line 3).loopTimer = none ∧ ((onLine .seize id).line 3).dialToneTimer = none
      ∧ ((onLine .seize id).line 3).answerTimer = none := by
  simp only [holds_iff, State.LinesRun]; decide +kernel

theorem witness_CallTimersEndTheCall :
    (∀ p ∈ [LoopPattern.normal, .noLoop], (timed p).LinesRun ∧ (timed p).Holds 3 0
        ∧ ((timed p).line 3).maxDurationTimer ≠ none ∧ ((timed p).line 3).farClearTimer ≠ none
        ∧ ((timed p).line 3).loopPattern = p)
      ∧ ((onLine .connected id).line 3).maxDurationTimer = none
      ∧ ((onLine .connected id).line 3).farClearTimer = none := by
  simp only [holds_iff, State.LinesRun]; decide +kernel

/-- L3 in DIALING behind digit position `pos`, the gap or the pause running. -/
def dialling (pos : Nat) (p : LoopPattern) (drive : Option (Fin 12)) : State :=
  onLine .dialing fun ln => { ln with
    digitPos := some pos, loopPattern := p, drive := drive, digitTimer := some 0, pauseTimer := some 0 }

/-- The tone of a digit, the gap behind the first and behind the last symbol, on either pattern. -/
theorem witness_DiallingGoesSymbolBySymbol :
    ((dialling 1 .normal (some 9)).line 3).drive ≠ none
      ∧ ∀ p ∈ [LoopPattern.normal, .reversed], ∀ pos ∈ [1, 3, 4],
        (dialling pos p none).LinesRun ∧ (dialling pos p none).Holds 3 0 ∧ ((dialling pos p none).line 3).state = .dialing
          ∧ ((dialling pos p none).line 3).digitPos = some pos ∧ ((dialling pos p none).line 3).digitTimer ≠ none
          ∧ ((dialling pos p none).line 3).drive = none ∧ ((dialling pos p none).line 3).pauseTimer ≠ none
          ∧ ((dialling pos p none).ctx 0).symbols[1]? = some .wait
          ∧ ((dialling pos p none).ctx 0).symbols[3]? = some (.tone 1)
          ∧ ((dialling pos p none).ctx 0).symbols[4]? = none
          ∧ ((dialling pos p none).line 3).loopPattern = p := by
  simp only [holds_iff, State.LinesRun]; decide +kernel

/-- L3 with a classifier report to take, the context asking for progress reports or not. -/
def reporting (st : LineState) (cls : ToneClass) (stale wait progress : Bool) : State :=
  (onLine st fun ln => { ln with
    reports := [{ cls := cls, stale := stale }], dialToneWait := wait
    dialToneTimer := if wait then some 9 else none, digitPos := some 1 }).withCtx 0 { call with progress := progress }

/-- Every class, fresh and stale, in every line state, with and without a dial-tone wait. -/
theorem witness_ClassReportActsByLineState :
    (∀ cls ∈ [ToneClass.unknown, .dial, .ringback, .busy, .congestion], ∀ stale wait progress : Bool,
        ∀ st ∈ [LineState.seize, .dialing, .awaitAnswer, .connected],
        let s := reporting st cls stale wait progress
        s.LinesRun ∧ (s.line 3).reports = [{ cls := cls, stale := stale }] ∧ (s.line 3).state = st ∧ s.Holds 3 0
          ∧ (s.line 3).dialToneWait = wait ∧ (s.line 3).digitPos = some 1 ∧ (s.ctx 0).progress = progress)
      ∧ (reporting .seize .dial false true true).progressRoom = true
      ∧ ((reporting .seize .dial false true true).ctx 0).symbols[0]? = some (.tone 9)
      ∧ ((reporting .seize .dial false true true).ctx 0).symbols[1]? = some .wait
      ∧ (∀ p ∈ [LoopPattern.normal, .reversed],
        let s := (onLine .dialing fun ln => { ln with
          reports := [{ cls := .dial, stale := false }], dialToneTimer := some 9, digitPos := some 3
          loopPattern := p })
        s.Holds 3 0 ∧ (s.line 3).digitPos = some 3 ∧ (s.ctx 0).symbols[4]? = none ∧ (s.line 3).loopPattern = p)
      ∧ ((reporting .seize .dial false true true).line 3).dialToneTimer ≠ none := by
  simp only [holds_iff, State.LinesRun]; decide +kernel

/-! ### The meter, the clocks, the report writer, the allocator -/

theorem witness_UnitStartChargesOrCuts :
    let e : MeterEntry :=
      { ctx := 0, account := 5, tariff := some 1, unitNumber := 1, unitPeriod := 60, unitCharge := 2, nextStart := 0
        warned := false }
    let s := fun (room : Nat) =>
      { withRoom room (onLine .connected id) with meters := State.reset.meters.set 3 (some e) }
    (onLine .connected id).LinesRun ∧ (onLine .connected id).meter 3 = none
      ∧ (∀ room ∈ [0, 1, 2], (s room).LinesRun ∧ (s room).meter 3 = some e ∧ (s room).Holds 3 e.ctx
        ∧ ((s room).line 3).state = .connected)
      ∧ ¬ ((s 1).account 5).Pays 2 ∧ ((s 2).account 5).Pays 2 ∧ ((s 0).account 5).Pays 0 := by
  simp only [holds_iff, State.LinesRun, Account.Pays]; decide +kernel

theorem witness_PriceIsThatOfTheBandInForce :
    State.reset.InForce 1 none
      ∧ (bands83 20 40000 false).InForce 1
        (some { daySet := .all, start := 25200, period := 180, unitCharge := 1, setupCharge := 0 }) := by
  refine ⟨.inr ⟨by decide +kernel, rfl⟩, .inl ⟨0, _, by decide +kernel, ?_, rfl⟩⟩
  intro j h
  exact absurd h (by omega)

/-- Either supply and neither; a second before the last and the last. -/
theorem witness_CalendarAdvancesOneSecond :
    (bands83 0 86398 true).power.vddAbove = true ∧ (bands83 0 86398 true).retained.calendar.second < 86399
      ∧ (bands83 65535 86399 false).retained.calendar.second = 86399
      ∧ (let fallen := { State.reset with power := { State.reset.power with vddAbove := false } }
        fallen.power.vddAbove = false ∧ fallen.power.vbatPresent = true)
      ∧ (let dead := { State.reset with power := { State.reset.power with vddAbove := false, vbatPresent := false } }
        dead.power.vddAbove = false ∧ dead.power.vbatPresent = false) := by decide +kernel

theorem witness_UptimeHandsOnDueCalls :
    let last := { inEngine .running with uptime := 4294967295 }
    let due := { offLine .retryWait with uptime := 6 }
    last.inReset = false ∧ last.uptime = 4294967295 ∧ (inEngine .ready).uptime < 4294967295
      ∧ (inEngine .ready).ctl.engine ≠ .running ∧ due.uptime < 4294967295 ∧ due.ctl.engine = .running ∧ due.ListsExact
      ∧ due.schedule = [0] ∧ due.dueOf 0 = due.uptime + 1 ∧ due.MaskHasUsable (due.ctx 0).mask
      ∧ ¬ (noLines due).MaskHasUsable (due.ctx 0).mask ∧ (noLines due).ListsExact := by
  refine ⟨by decide +kernel, by decide +kernel, by decide +kernel, by decide +kernel, by decide +kernel,
    by decide +kernel, listsExact_retryWait, by decide +kernel, by decide +kernel, ?_, ?_, listsExact_retryWait⟩
  · unfold State.MaskHasUsable; decide +kernel
  · unfold State.MaskHasUsable; decide +kernel

theorem witness_PostFreesTheEntry :
    adopted.report.outbox = [{ body := .callEnd 0, urgent := false }] ∧ adopted.mayPost = true
      ∧ (inEngine .running).report.outbox = [] ∧ (inEngine .halted).ctl.engine ∈ [.checking, .halted]
      ∧ (inEngine .running).report.adopted = false
      ∧ (let r := { adopted.report with producer := 4 }
        (r.producer - r.cachedConsumer).toNat = r.size) := by decide +kernel

/-- One post short of the batch count and at it, with each hold time and timer, on either pending flag. -/
theorem witness_PostsAndHoldTimerRaiseSig :
    let r := fun (pending : Bool) (posts hold : Nat) (timer : HoldTimer) =>
      { adopted.report with sigPending := pending, unsignalled := posts, holdTime := hold, holdTimer := timer, batch := 3 }
    (∀ pending : Bool, ∀ timer ∈ [HoldTimer.stopped, .running 4], ∀ hold ∈ [0, 1],
        (r pending 2 hold timer).batch ≤ min ((r pending 2 hold timer).unsignalled + 1) 255
          ∧ min ((r pending 1 hold timer).unsignalled + 1) 255 < (r pending 1 hold timer).batch
          ∧ (r pending 1 hold timer).sigPending = pending ∧ (r pending 1 hold timer).holdTimer = timer
          ∧ (r pending 1 hold timer).holdTime = hold)
      ∧ (r false 2 1 (.running 4)).unsignalled < (r false 2 1 (.running 4)).batch := by decide +kernel

/-- L2 with a qualified pattern, its dial tone required or not; C0 waits for L2 or L3. -/
def facing (p : LoopPattern) (tone : Bool) : State :=
  (offLine .pending).withLine 2 { State.reset.line 2 with
    loopPattern := p, stored := { (State.reset.line 2).stored with dialToneRequired := tone } }

/-- Account 5 SUSPENDED, at its limit, one charge unit below it; each pattern at the entry to SEIZE. -/
theorem witness_GrantSeizesTheLine :
    ((offLine .pending).ctx 0).account = some 5
      ∧ (((offLine .pending).withAccount 5 { Account.cleared with suspended := true }).account 5).suspended = true
      ∧ (∀ room ∈ [0, 1], ((withRoom room (offLine .pending)).account 5).suspended = false
        ∧ ((withRoom room (offLine .pending)).account 5).limited = true)
      ∧ ((withRoom 0 (offLine .pending)).account 5).limit ≤ ((withRoom 0 (offLine .pending)).account 5).total
      ∧ ((withRoom 1 (offLine .pending)).account 5).total < ((withRoom 1 (offLine .pending)).account 5).limit
      ∧ (∀ p ∈ [LoopPattern.noLoop, .normal, .reversed, .invalid], ∀ tone : Bool,
        (((facing p tone).grant 0 2).line 2).loopPattern = p
          ∧ (((facing p tone).grant 0 2).line 2).working.dialToneRequired = tone
          ∧ ((facing p tone).ctx 0).account = some 5 ∧ ((facing p tone).ctx 0).symbols[0]? = some (.tone 9)) := by
  decide +kernel

/-- A state with the contexts, waiting list and schedule of one PENDING call has exact lists. -/
theorem listsExact_waits (s : State) (h : s.ctxs = (offLine .pending).ctxs) (w : s.waiting = (offLine .pending).waiting)
    (k : s.schedule = []) : s.ListsExact := by
  have base := listsExact_pending
  unfold State.ListsExact State.WaitingExact State.ScheduleExact State.dueOf State.ctx at *
  rw [h, w, k]
  exact base

/-- C0 waits for L2 or L3, both free, L2 with either a NO_LOOP or an INVALID pattern; its account refuses or admits. -/
theorem witness_PassLeavesNoPair :
    ((offLine .pending).ctl.engine = .running ∧ (offLine .pending).ListsExact ∧ (offLine .pending).FreeListExact
        ∧ (offLine .pending).LinesExact ∧ (offLine .pending).waiting.all = [] ++ 0 :: []
        ∧ (offLine .pending).freeLines = [0, 1] ++ 2 :: [3, 4, 5, 6, 7]
        ∧ (∀ k ∈ ([0, 1] : List LineId), ((offLine .pending).ctx 0).mask.getLsbD k.val = false)
        ∧ ((offLine .pending).ctx 0).mask.getLsbD 2 = true)
      ∧ ((offLine .pending).admissionRefusal 0 = none ∧ ((offLine .pending).line 2).loopPattern ≠ .invalid)
      ∧ ((facing .invalid true).ctl.engine = .running ∧ (facing .invalid true).ListsExact
        ∧ (facing .invalid true).FreeListExact ∧ (facing .invalid true).LinesExact
        ∧ (facing .invalid true).waiting.all = [] ++ 0 :: []
        ∧ (facing .invalid true).freeLines = [0, 1] ++ 2 :: [3, 4, 5, 6, 7]
        ∧ (facing .invalid true).admissionRefusal 0 = none ∧ ((facing .invalid true).line 2).loopPattern = .invalid)
      ∧ ((withRoom 0 (offLine .pending)).ListsExact ∧ (withRoom 0 (offLine .pending)).FreeListExact
        ∧ (withRoom 0 (offLine .pending)).LinesExact ∧ (withRoom 0 (offLine .pending)).ctl.engine = .running
        ∧ (withRoom 0 (offLine .pending)).admissionRefusal 0 = some .limitReached)
      ∧ ((noLines (offLine .pending)).ListsExact ∧ (noLines (offLine .pending)).waiting.all = [0]
        ∧ ((noLines (offLine .pending)).ctx 0).stamp = none
        ∧ ¬ (noLines (offLine .pending)).MaskHasUsable ((noLines (offLine .pending)).ctx 0).mask) := by
  have free : (offLine .pending).FreeListExact := by unfold State.FreeListExact; decide +kernel
  refine ⟨⟨rfl, listsExact_pending, free, linesExact_offLine, by decide +kernel, by decide +kernel, by decide +kernel,
    by decide +kernel⟩, by decide +kernel, ⟨rfl, listsExact_waits _ rfl rfl rfl, ?_, ?_, by decide +kernel, by decide +kernel,
    by decide +kernel, by decide +kernel⟩, ⟨listsExact_pending, free, linesExact_offLine, rfl, by decide +kernel⟩,
    ⟨listsExact_waits _ rfl rfl rfl, by decide +kernel, by decide +kernel, ?_⟩⟩
  · unfold State.FreeListExact; decide +kernel
  · have held : ∀ l : LineId, ((facing .invalid true).line l).held = none := by decide +kernel
    have meters : ∀ l : LineId, (facing .invalid true).meter l = none := by decide +kernel
    have off : ∀ c : CtxId, ((facing .invalid true).ctx c).state ≠ .onLine := by decide +kernel
    refine fun _ => ⟨by decide +kernel, fun l c h => ?_, fun c h => absurd h (off c), fun l e h => ?_⟩
    · rw [held l] at h; cases h
    · rw [meters l] at h; cases h
  · unfold State.MaskHasUsable; decide +kernel

end Sys2Proof.Tests
end

section
/-! PROOF. The SIGNAL register and signal moderation (R153 to R155): what the acknowledge, a post and the run-out of the hold
timer make of the report writer, case by case; then the two statements about them. -/

namespace Sys2Proof.Machine

/-! ## The acknowledge -/

theorem State.registerWrite_of_not_inReset {s : State} (effect : State → State) (h : s.inReset = false) :
    s.registerWrite effect = effect s := by
  simp [State.registerWrite, h]

/-- Outside a reset a write to SIGNAL is the acknowledge of the report writer (R154, R163). -/
theorem exec_signalAcknowledge_of_not_inReset {s : State} (h : s.inReset = false) :
    exec .signalAcknowledge s
      = .next { s with report := s.report.acknowledge (decide (s.ctl.engine = .halted)) } :=
  congrArg Host.Outcome.next (State.registerWrite_of_not_inReset _ h)

theorem State.readRegister_signal (s : State) : s.readRegister 12 = if s.report.sigPending then 1 else 0 := rfl

/-- The posts since the raise call for a new one (R154). -/
def ReportWriter.CallsForRaise (r : ReportWriter) : Prop :=
  0 < r.unsignalled ∧ (r.holdTimer = .expired ∨ r.batch ≤ r.unsignalled)

theorem ReportWriter.acknowledge_of_clear {r : ReportWriter} (halted : Bool) (h : r.sigPending = false) :
    r.acknowledge halted = r := by
  simp [ReportWriter.acknowledge, h]

theorem ReportWriter.acknowledge_raises {r : ReportWriter} (h : r.sigPending = true) (due : r.CallsForRaise) :
    r.acknowledge false = r.raise := by
  obtain ⟨posts, cause⟩ := due
  simp [ReportWriter.acknowledge, ReportWriter.raise, h, posts, cause]

theorem ReportWriter.acknowledge_clears {r : ReportWriter} {halted : Bool} (h : r.sigPending = true)
    (quiet : ¬ r.CallsForRaise ∨ halted = true) : r.acknowledge halted = { r with sigPending := false } := by
  rcases quiet with notDue | rfl
  · simp only [ReportWriter.acknowledge, h, if_true]
    refine if_neg fun raises => notDue ?_
    simp only [Bool.and_eq_true, Bool.or_eq_true, decide_eq_true_eq] at raises
    obtain ⟨⟨-, posts⟩, cause⟩ := raises
    exact ⟨posts, cause⟩
  · simp [ReportWriter.acknowledge, h]

/-- Settles O22: outside a reset the write is `acknowledge`, whose three cases are the three clauses. -/
theorem acknowledgeJudgesThePosts : Obligations.AcknowledgeJudgesThePosts := by
  intro s running
  simp only [exec_signalAcknowledge_of_not_inReset running]
  refine ⟨s.readRegister_signal, fun clear => ?_, fun set due active => ?_, fun set quiet => ?_⟩
  · rw [ReportWriter.acknowledge_of_clear _ clear]
  · rw [decide_eq_false active, ReportWriter.acknowledge_raises set due]
    rfl
  · rw [ReportWriter.acknowledge_clears set (quiet.imp id decide_eq_true)]

/-! ## A post -/

/-- The report writer with one more post in the unsignalled count, which stops at 255 (R153). -/
def ReportWriter.counted (r : ReportWriter) : ReportWriter := { r with unsignalled := min (r.unsignalled + 1) 255 }

/-- `countPost` starts from the count raised by one, and a raise of that is a raise of the report writer before it. -/
theorem ReportWriter.countPost_eq (r : ReportWriter) (urgent : Bool) :
    r.countPost urgent =
      if r.sigPending then
        if urgent then { r.counted with holdTimer := .expired }
        else
          match r.holdTimer with
          | .stopped => if r.holdTime = 0 then { r.counted with holdTimer := .expired } else r.counted.startHold
          | .running _ | .expired => r.counted
      else if urgent then r.raise
      else if r.batch ≤ r.counted.unsignalled then r.raise
      else
        match r.holdTimer with
        | .stopped => if r.holdTime = 0 then r.raise else r.counted.startHold
        | .running _ | .expired => r.counted := rfl

section
variable {r : ReportWriter} {urgent : Bool}

theorem ReportWriter.countPost_raises (clear : r.sigPending = false)
    (cause : urgent = true ∨ r.batch ≤ r.counted.unsignalled ∨ (r.holdTimer = .stopped ∧ r.holdTime = 0)) :
    r.countPost urgent = r.raise := by
  rw [countPost_eq]
  rcases cause with rfl | full | ⟨stopped, noHold⟩
  · simp [clear]
  · simp [clear, full]
  · simp [clear, stopped, noHold]

theorem ReportWriter.countPost_expires (set : r.sigPending = true)
    (cause : urgent = true ∨ (r.holdTimer = .stopped ∧ r.holdTime = 0)) :
    r.countPost urgent = { r.counted with holdTimer := .expired } := by
  rw [countPost_eq]
  rcases cause with rfl | ⟨stopped, noHold⟩
  · simp [set]
  · simp [set, stopped, noHold]

/-- A post that calls for no raise at once, on either pending flag: only the hold timer is left to judge. -/
theorem ReportWriter.countPost_startsHold (few : r.sigPending = true ∨ r.counted.unsignalled < r.batch)
    (stopped : r.holdTimer = .stopped) (hold : 0 < r.holdTime) : r.countPost false = r.counted.startHold := by
  rw [countPost_eq]
  rcases few with set | few
  · simp [set, stopped, hold.ne']
  · simp [few.not_ge, stopped, hold.ne']

theorem ReportWriter.countPost_counts (few : r.sigPending = true ∨ r.counted.unsignalled < r.batch)
    (started : r.holdTimer ≠ .stopped) : r.countPost false = r.counted := by
  rw [countPost_eq]
  rcases few with set | few
  · cases timer : r.holdTimer with
    | stopped => exact absurd timer started
    | running left => simp [set]
    | expired => simp [set]
  · cases timer : r.holdTimer with
    | stopped => exact absurd timer started
    | running left => simp [few.not_ge]
    | expired => simp [few.not_ge]

end

/-- The four results of a post (R153): a raise, the hold timer EXPIRED under a flag that is set, and two that leave the flag
as it stands. -/
theorem ReportWriter.countPost_cases (r : ReportWriter) (urgent : Bool) :
    r.countPost urgent = r.raise
      ∨ (r.sigPending = true ∧ r.countPost urgent = { r.counted with holdTimer := .expired })
      ∨ ((r.sigPending = true ∨ r.counted.unsignalled < r.batch)
        ∧ (r.countPost urgent = r.counted.startHold ∨ r.countPost urgent = r.counted)) := by
  by_cases quiet : urgent = false ∧ (r.sigPending = true ∨ r.counted.unsignalled < r.batch)
      ∧ ¬ (r.holdTimer = .stopped ∧ r.holdTime = 0)
  · obtain ⟨rfl, few, held⟩ := quiet
    refine .inr (.inr ⟨few, ?_⟩)
    by_cases stopped : r.holdTimer = .stopped
    · exact .inl (countPost_startsHold few stopped (Nat.pos_of_ne_zero fun zero => held ⟨stopped, zero⟩))
    · exact .inr (countPost_counts few stopped)
  · cases flag : r.sigPending
    · exact .inl (countPost_raises flag (by grind))
    · exact .inr (.inl ⟨rfl, countPost_expires flag (by grind)⟩)

/-- What a report writer keeps with the pending flag clear (R153). -/
def ReportWriter.QuietWhenClear (r : ReportWriter) : Prop :=
  r.sigPending = false → r.unsignalled < r.batch ∧ r.holdTimer ≠ .expired

/-- A post leaves the flag clear only below the batch count, with the hold timer started or, not EXPIRED, as it stood. -/
theorem ReportWriter.countPost_quietWhenClear {r : ReportWriter} (urgent : Bool) (kept : r.QuietWhenClear) :
    (r.countPost urgent).QuietWhenClear := by
  intro clearAfter
  rcases r.countPost_cases urgent with result | ⟨set, result⟩ | ⟨few, result | result⟩ <;> rw [result] at clearAfter ⊢
  · cases clearAfter
  · exact absurd (set.symm.trans clearAfter) Bool.noConfusion
  · exact ⟨few.resolve_left (Bool.eq_false_iff.mp clearAfter), HoldTimer.noConfusion⟩
  · exact ⟨few.resolve_left (Bool.eq_false_iff.mp clearAfter), (kept clearAfter).2⟩

/-! ## The run-out of the hold timer -/

theorem ReportWriter.holdOut_of_running {r : ReportWriter} {left : Nat} (h : r.holdTimer = .running left) :
    r.holdOut = if r.sigPending then { r with holdTimer := .expired } else r.raise := by
  simp only [ReportWriter.holdOut, h]

theorem exec_holdTimerExpiry (s : State) : exec .holdTimerExpiry s = .next { s with report := s.report.holdOut } := rfl

theorem State.sigPin_eq (s : State) : s.sigPin = s.report.sigPending := rfl

/-- Settles O57: the table of R153 row by row, on the flag clear and on the flag set; the run-out; the pin; what a post
leaves with the flag clear. -/
theorem postsAndHoldTimerRaiseSig : Obligations.PostsAndHoldTimerRaiseSig := by
  refine ⟨fun r urgent => ⟨fun clear => ⟨?_, ?_, ?_⟩, fun set => ⟨?_, ?_, ?_⟩⟩, fun left s running => ?_, State.sigPin_eq,
    fun r urgent => ReportWriter.countPost_quietWhenClear urgent⟩
  · exact ReportWriter.countPost_raises clear
  · rintro rfl few stopped hold
    exact ReportWriter.countPost_startsHold (.inr few) stopped hold
  · rintro rfl few started
    exact ReportWriter.countPost_counts (.inr few) started
  · exact ReportWriter.countPost_expires set
  · rintro rfl stopped hold
    exact ReportWriter.countPost_startsHold (.inl set) stopped hold
  · rintro rfl started
    exact ReportWriter.countPost_counts (.inl set) started
  · rw [exec_holdTimerExpiry, ReportWriter.holdOut_of_running running]
    rfl

end Sys2Proof.Machine
end

section
/-! PROOF. What one step is made of. Every step is a run of acts (`State.Act`): each an indivisible change of the state that
keeps every invariant of Safety.lean. The steps are cut into acts once; each invariant is then proved act by act. -/

namespace Sys2Proof.Machine

/-! ## The changes of a line, a context and the retained domain that acts are made of -/

/-- A change of a line that concerns neither the free line list, nor the context the line is held by, nor its metering
entry. -/
structure Line.Moves (x y : Line) : Prop where
  idle : y.state = .idle ↔ x.state = .idle
  offHook : y.state.offHook = x.state.offHook
  held : y.held = x.held
  connected : x.state = .connected → y.state = .connected
  signalling : x.SignallingExact → y.SignallingExact

@[refl] theorem Line.Moves.refl (x : Line) : x.Moves x := ⟨.rfl, rfl, rfl, id, id⟩

theorem Line.Moves.trans {x y z : Line} (h : x.Moves y) (k : y.Moves z) : x.Moves z :=
  ⟨k.idle.trans h.idle, k.offHook.trans h.offHook, k.held.trans h.held, k.connected ∘ h.connected,
    k.signalling ∘ h.signalling⟩

/-- A change that leaves the line state and what `Line.SignallingExact` reads, timers by whether they run. -/
theorem Line.Moves.of_same {x y : Line} (state : y.state = x.state) (held : y.held = x.held)
    (drive : y.drive = x.drive) (digit : y.digitTimer.isSome = x.digitTimer.isSome)
    (pause : y.pauseTimer.isSome = x.pauseTimer.isSome) (dial : y.dialToneTimer.isSome = x.dialToneTimer.isSome)
    (wait : y.dialToneWait = x.dialToneWait) (enabled : y.classifier.enabled = x.classifier.enabled) : x.Moves y := by
  refine ⟨by rw [state], by rw [state], held, by rw [state]; exact id, fun h => ?_⟩
  unfold Line.SignallingExact at h ⊢
  simp only [← Option.not_isSome_iff_eq_none] at h ⊢
  rwa [state, drive, digit, pause, dial, wait, enabled]

/-- A change of a context that no list, no line and no limit depends on. -/
structure Context.Notes (x y : Context) : Prop where
  state : y.state = x.state
  tag : y.tag = x.tag
  origin : y.origin = x.origin
  due : y.due = x.due
  currentLine : y.currentLine = x.currentLine
  snapshot : y.snapshot = x.snapshot
  attempts : y.attempts = x.attempts

/-- Every present entry of a policy table is in its range (R102). -/
def Retained.PoliciesInRange (t : Retained) : Prop := ∀ i : Fin 8, ∀ p ∈ t.policies[i], p.InRange

/-- A change of the retained domain by a table write (R41): soundness and the ranges of the policies are kept. -/
structure Retained.Tidy (t r : Retained) : Prop where
  sound : t.Sound → r.Sound
  policies : t.PoliciesInRange → r.PoliciesInRange

/-- The limits stand, and no total rises past one (R130). -/
def Retained.Limited (t r : Retained) : Prop :=
  ∀ a : AccountId, r.accounts[a].limited = true →
    t.accounts[a].limited = true ∧ r.accounts[a].limit = t.accounts[a].limit
      ∧ r.accounts[a].total ≤ max t.accounts[a].total r.accounts[a].limit

/-- A change of the retained domain by anything but SET_LIMIT and a loss of the content. -/
structure Retained.Moves (t r : Retained) : Prop extends t.Tidy r where
  limited : t.Limited r

theorem Retained.Limited.of_accounts {t r : Retained} (h : r.accounts = t.accounts) : t.Limited r := by
  intro a limited
  rw [h] at limited ⊢
  exact ⟨limited, rfl, le_max_left _ _⟩

@[refl] theorem Retained.Moves.refl (t : Retained) : t.Moves t := ⟨⟨id, id⟩, .of_accounts rfl⟩

theorem Retained.Limited.trans {t u r : Retained} (h : t.Limited u) (k : u.Limited r) : t.Limited r := by
  intro a limited
  obtain ⟨limitedU, limitU, totalU⟩ := k a limited
  obtain ⟨limitedT, limitT, totalT⟩ := h a limitedU
  exact ⟨limitedT, limitU.trans limitT, by omega⟩

theorem Retained.Moves.trans {t u r : Retained} (h : t.Moves u) (k : u.Moves r) : t.Moves r :=
  ⟨⟨k.sound ∘ h.sound, k.policies ∘ h.policies⟩, h.limited.trans k.limited⟩

/-- The context that a record posted as a CALL_END referred to is FREE again (R12). -/
def State.clearPosted (s : State) : EntryBody → State
  | .callEnd c => if (s.ctx c).state = .ended then s.modCtx c fun _ => Context.cleared else s
  | .done _ | .progress _ | .unsolicited _ => s

/-- Glare but for the report and the pass (R100): the line rings and its context goes back. -/
def State.glareTurn (s : State) (l : LineId) : State :=
  match (s.line l).held with
  | some c =>
    if (s.ctx c).state = .onLine then (s.modLine l Line.toGlare).glareReturn c else s.modLine l Line.toGlare
  | none => s.modLine l Line.toGlare

/-- A snapshot that intake can take (R3): that of NONE, or a present entry of the policy table. -/
def State.Snapshot (s : State) (p : Policy) : Prop := p = Policy.single ∨ ∃ i : Fin 8, s.retained.policies[i] = some p

/-- The outbox has a place for an entry that references no context (R146). -/
def State.RoomFor (s : State) (e : OutboxEntry) : Prop :=
  (∀ c, e.body ≠ .callEnd c)
    ∧ (e.isDone = true → s.report.outbox.countP OutboxEntry.isDone < Config.quota)
    ∧ (e.isProgress = true → s.report.outbox.countP OutboxEntry.isProgress < Config.quota)
    ∧ (e.isUnsolicited = true → s.report.outbox.countP OutboxEntry.isUnsolicited < Config.quota)

/-- One act; `R` bounds what becomes of the retained domain. -/
inductive State.Act (R : Retained → Retained → Prop) (s : State) : State → Prop where
  /-- control block, supplies, clocks and the model's own fields; HALTED is not left -/
  | frame (k : Control) (p : Power) (uptime uptimeMs seed : Nat) (pending : List Instr)
      (halted : s.ctl.engine = .halted → k.engine = .halted) :
      State.Act R s { s with
        ctl := k, power := p, uptime := uptime, uptimeMs := uptimeMs, seed := seed, pending := pending }
  /-- stores to shared memory -/
  | memory (m : Memory) (canonical : Memory.wf s.mem = true → Memory.wf m = true) : State.Act R s { s with mem := m }
  /-- the order rings -/
  | rings (x : Intake)
      (bounded : ∀ r, (s.ring r).Bounded → (({ s with intake := x } : State).ring r).Bounded) :
      State.Act R s { s with intake := x }
  /-- the report writer but for its outbox -/
  | writer (w : ReportWriter) (outbox : w.outbox = s.report.outbox)
      (bounded : s.RingsBounded → ({ s with report := w } : State).RingsBounded)
      (signal : s.SignalKept → ({ s with report := w } : State).SignalKept) : State.Act R s { s with report := w }
  /-- the retained domain -/
  | retained (r : Retained) (change : R s.retained r) : State.Act R s { s with retained := r }
  /-- the lines, apart from lists and contexts -/
  | lines (v : Vector Line 8) (moves : ∀ l : LineId, (s.line l).Moves v[l]) : State.Act R s { s with lines := v }
  /-- a metering entry opened on a CONNECTED line for the context that holds it, or one changed -/
  | meter (l : LineId) (e : MeterEntry)
      (justified : ((s.line l).state = .connected ∧ (s.line l).held = some e.ctx)
        ∨ ∃ e' ∈ s.meter l, e'.ctx = e.ctx) : State.Act R s (s.setMeter l (some e))
  /-- counters and stamps of a context -/
  | notes (c : CtxId) (f : Context → Context) (notes : (s.ctx c).Notes (f (s.ctx c))) : State.Act R s (s.modCtx c f)
  /-- a report queued, within its quota -/
  | queued (b : EntryBody) (u : Bool) (room : s.RoomFor { body := b, urgent := u }) : State.Act R s (s.queue b u)
  /-- a line leaves the free line list -/
  | leavesFree (l : LineId) (f : Line → Line) (offHook : (s.line l).state.offHook = false)
      (offHook' : (f (s.line l)).state.offHook = false) (busy : (f (s.line l)).state ≠ .idle)
      (held : (f (s.line l)).held = (s.line l).held)
      (signalling : (s.line l).SignallingExact → (f (s.line l)).SignallingExact) :
      State.Act R s ((s.modLine l f).leaveFree l)
  /-- a line joins the free line list -/
  | joinsFree (l : LineId) (f : Line → Line) (offHook : (s.line l).state.offHook = false)
      (busy : (s.line l).state ≠ .idle) (idle : (f (s.line l)).state = .idle)
      (held : (f (s.line l)).held = (s.line l).held)
      (signalling : (s.line l).SignallingExact → (f (s.line l)).SignallingExact) :
      State.Act R s ((s.modLine l f).joinFree l)
  /-- the ending step of a context (R11) -/
  | ends (c : CtxId) (o : CallOutcome) (active : c ∈ s.waiting.all ∨ (s.ctx c).state.isActive = true) :
      State.Act R s (s.endContext c o)
  /-- the sweep (R52) -/
  | sweep : State.Act R s s.sweep
  /-- the ending step of a line (R73) -/
  | endsOnLine (l : LineId) (o : CallOutcome) : State.Act R s (s.endOnLine l o)
  /-- a line fault (R77) -/
  | faults (l : LineId) (offHook : (s.line l).state.offHook = true) : State.Act R s (s.faultLine l)
  /-- a grant (R50) -/
  | grant (c : CtxId) (l : LineId) (waits : c ∈ s.waiting.all) (free : l ∈ s.freeLines) : State.Act R s (s.grant c l)
  /-- glare (R100) -/
  | glare (l : LineId) (seized : (s.line l).state = .seize) : State.Act R s (s.glareTurn l)
  /-- a PLACE_CALL that passes its checks (R14) -/
  | place (c : CtxId) (x : Context) (free : (s.ctx c).state = .free) (state : x.state = .pending) (due : x.due = none)
      (attempts : x.attempts = 0) (snapshot : s.Snapshot x.snapshot) (tag : s.TagUnused x.tag) :
      State.Act R s ((s.modCtx c fun _ => x).setWaiting (s.waiting.joinTail x.origin c))
  /-- a call request that fails a check (R14, R16) -/
  | refuses (c : CtxId) (x : Context) (o : CallOutcome) (free : (s.ctx c).state = .free) (state : x.state = .free)
      (attempts : x.attempts = 0) (snapshot : s.Snapshot x.snapshot) :
      State.Act R s ((s.modCtx c fun _ => x).endContext c o)
  /-- an ACCEPT that passes its checks (R97) -/
  | accepts (c : CtxId) (l : LineId) (x : Context) (free : (s.ctx c).state = .free) (state : x.state = .onLine)
      (current : x.currentLine = some l) (due : x.due = none) (attempts : x.attempts = 0)
      (snapshot : x.snapshot = Policy.single) (tag : s.TagUnused x.tag) (ringing : (s.line l).state = .ringing) :
      State.Act R s ((s.modCtx c fun _ => x).modLine l fun ln => ln.toAnswering c)
  /-- a due context joins the waiting list (R109) -/
  | due (c : CtxId) (head : s.dueHead = some c) :
      State.Act R s (((s.unschedule c).modCtx c fun x => { x with state := .pending, due := none }).setWaiting
        (s.waiting.joinTail (s.ctx c).origin c))
  /-- a due context without a usable line (R109) -/
  | dueLost (c : CtxId) (head : s.dueHead = some c) :
      State.Act R s (((s.unschedule c).modCtx c fun x => { x with due := none }).endContext c .noLine)
  /-- the outbox's head is posted (R148 step 4) -/
  | posted (e : OutboxEntry) (rest : List OutboxEntry) (head : s.report.outbox = e :: rest) :
      State.Act R s ((s.modReport fun w => { w with outbox := rest }).clearPosted e.body)
  /-- the entry to HALTED, from any control block, rings and report writer (R166) -/
  | halts (k : Control) (x : Intake) (w : ReportWriter) (v : Vector Line 8) (cause : ErrorCode)
      (outbox : w.outbox = s.report.outbox) (batch : 1 ≤ s.report.batch → 1 ≤ w.batch)
      (moves : ∀ l : LineId, (s.line l).Moves v[l]) :
      State.Act R s (({ s with ctl := k, intake := x, report := w, lines := v } : State).halt cause)
  /-- every block at its reset values (R163) -/
  | resets (cause : ResetCause) : State.Act R s (s.resetBlocks cause)

/-- A run of acts. -/
abbrev State.Acts (R : Retained → Retained → Prop) : State → State → Prop := Relation.ReflTransGen (State.Act R)

/-- What every act keeps a run of acts keeps. -/
theorem State.Acts.keeps {R : Retained → Retained → Prop} {P : State → Prop}
    (each : ∀ {s t : State}, State.Act R s t → P s → P t) {s t : State} (run : State.Acts R s t) (h : P s) : P t := by
  induction run with
  | refl => exact h
  | tail _ act ih => exact each act ih

end Sys2Proof.Machine
end

section
/-! PROOF. The operations of calls and lines cut into acts: queueing, metering, dialling, the entry to SEIZE, the pairing
pass, glare, a due retry. -/

namespace Sys2Proof.Machine

/-! ## A line replaced -/

theorem State.modLine_eq_withLine (s : State) (l : LineId) (f : Line → Line) :
    s.modLine l f = s.withLine l (f (s.line l)) := rfl

@[simp] theorem State.withLine_line_same (s : State) (l : LineId) (x : Line) : (s.withLine l x).line l = x :=
  s.modLine_line_same l fun _ => x

theorem State.withLine_line (s : State) (l k : LineId) (x : Line) :
    (s.withLine l x).line k = if k = l then x else s.line k := s.modLine_line l k fun _ => x

@[simp] theorem State.withLine_ctx (s : State) (l : LineId) (x : Line) (c : CtxId) : (s.withLine l x).ctx c = s.ctx c :=
  rfl

@[simp] theorem State.withLine_meter (s : State) (l k : LineId) (x : Line) : (s.withLine l x).meter k = s.meter k := rfl

@[simp] theorem State.withLine_withLine (s : State) (l : LineId) (x y : Line) :
    (s.withLine l x).withLine l y = s.withLine l y := by
  simp [State.withLine]

@[simp] theorem State.withLine_modLine (s : State) (l : LineId) (x : Line) (f : Line → Line) :
    (s.withLine l x).modLine l f = s.withLine l (f x) := by
  rw [State.modLine_eq_withLine, State.withLine_line_same, State.withLine_withLine]

/-! ## A symbol begun (R63 to R67) -/

theorem State.beginSymbol_some {s : State} {l : LineId} {c : CtxId} {pos : Nat} {symbol : Symbol}
    (h : (s.ctx c).symbolAt pos = some symbol) :
    s.beginSymbol l c pos = s.withLine l ((s.line l).sending pos symbol) := by
  unfold State.beginSymbol
  rw [h]
  cases symbol <;> rfl

/-- AWAIT_ANSWER entered on line `l`: at once answered when the pattern already is REVERSED (R67). -/
theorem State.awaitAnswerEntry_eq (s : State) (l : LineId) (c : CtxId) :
    s.awaitAnswerEntry l c =
      if (s.line l).loopPattern = .reversed then
        (s.withLine l ((s.line l).awaiting (s.ctx c).answerTimeout)).answer l
      else s.withLine l ((s.line l).awaiting (s.ctx c).answerTimeout) := rfl

theorem State.beginSymbol_none {s : State} {l : LineId} {c : CtxId} {pos : Nat}
    (h : (s.ctx c).symbolAt pos = none) : s.beginSymbol l c pos = s.awaitAnswerEntry l c := by
  unfold State.beginSymbol
  rw [h]

/-! ## Small runs of acts -/

section
variable {R : Retained → Retained → Prop}

theorem State.withLine_acts {s : State} {l : LineId} {x : Line} (h : (s.line l).Moves x) :
    State.Acts R s (s.withLine l x) := by
  refine .single (.lines _ fun k => ?_)
  show (s.line k).Moves ((s.withLine l x).line k)
  rw [State.withLine_line]
  split
  · rename_i hk; rw [hk]; exact h
  · exact .refl _

theorem State.modLine_acts {s : State} {l : LineId} {f : Line → Line} (h : (s.line l).Moves (f (s.line l))) :
    State.Acts R s (s.modLine l f) := State.withLine_acts h

theorem State.notes_acts {s : State} {c : CtxId} {f : Context → Context} (h : (s.ctx c).Notes (f (s.ctx c))) :
    State.Acts R s (s.modCtx c f) := .single (.notes c f h)

theorem State.queueProgress_acts (s : State) (c : CtxId) (l : LineId) (kind : ProgressKind) :
    State.Acts R s (s.queueProgress c l kind) := by
  unfold State.queueProgress
  split
  · rename_i room
    exact .single (.queued _ _ ⟨fun _ => EntryBody.noConfusion, fun h => (by cases h), fun _ => room, fun h => (by cases h)⟩)
  · exact .single (.notes c _ ⟨rfl, rfl, rfl, rfl, rfl, rfl, rfl⟩)

theorem State.queueProgressIfAsked_acts (s : State) (c : CtxId) (l : LineId) (kind : ProgressKind) :
    State.Acts R s (s.queueProgressIfAsked c l kind) := by
  unfold State.queueProgressIfAsked
  split
  · exact s.queueProgress_acts c l kind
  · exact .refl

/-- Only the missed count of the report writer changes, or counters of that kind. -/
theorem State.writer_acts {s : State} {w : ReportWriter} (outbox : w.outbox = s.report.outbox)
    (adopted : w.adopted = s.report.adopted) (producer : w.producer = s.report.producer)
    (cached : w.cachedConsumer = s.report.cachedConsumer) (size : w.size = s.report.size)
    (signal : s.SignalKept → ({ s with report := w } : State).SignalKept) :
    State.Acts R s { s with report := w } := by
  refine .single (.writer w outbox (fun bounded running => ?_) signal)
  obtain ⟨urgent, routine, report⟩ := bounded running
  refine ⟨urgent, routine, fun h => ?_⟩
  show (w.producer - w.cachedConsumer).toNat ≤ w.size
  rw [producer, cached, size]
  exact report (adopted ▸ h)

theorem State.queueUnsolicited_acts (s : State) (kind : UnsolicitedKind) : State.Acts R s (s.queueUnsolicited kind) := by
  unfold State.queueUnsolicited
  split
  · rename_i room
    exact .single (.queued _ _ ⟨fun _ => EntryBody.noConfusion, fun h => (by cases h), fun h => (by cases h), fun _ => room⟩)
  · exact State.writer_acts rfl rfl rfl rfl rfl id

theorem State.queueDone_acts {s : State} (room : s.doneSlotFree = true) (tag : Half) (kind : Byte) (status : DoneStatus)
    (data : Option (AccountId × Account)) (urgent : Bool) :
    State.Acts R s (s.queueDone tag kind status data urgent) :=
  .single (.queued _ _ ⟨fun _ => EntryBody.noConfusion, fun _ => of_decide_eq_true room, fun h => (by cases h),
    fun h => (by cases h)⟩)

end

/-! ## Changes of an account -/

/-- An account table write whose account keeps its limit, its total not risen past it (R128, R130). -/
theorem Retained.modAccount_moves (t : Retained) (a : AccountId) (f : Account → Account)
    (h : (f t.accounts[a]).limited = true → t.accounts[a].limited = true ∧ (f t.accounts[a]).limit = t.accounts[a].limit
      ∧ (f t.accounts[a]).total ≤ max t.accounts[a].total (f t.accounts[a]).limit) : t.Moves (t.modAccount a f) := by
  refine ⟨⟨fun ⟨prefixes, bands, _, policies, calendar⟩ => ⟨prefixes, bands, isSound_checkOf _, policies, calendar⟩, id⟩,
    fun b limited => ?_⟩
  by_cases hb : b = a
  · subst hb
    have same : (t.modAccount b f).accounts[b] = f t.accounts[b] := by
      simp [Retained.modAccount, Retained.setAccounts]
    rw [same] at limited ⊢
    exact h limited
  · have hv : a.val ≠ b.val := fun e => hb (Fin.ext e.symm)
    have other : (t.modAccount a f).accounts[b] = t.accounts[b] := by
      simp [Retained.modAccount, Retained.setAccounts, Vector.getElem_set_ne, hv]
    rw [other] at limited ⊢
    exact ⟨limited, rfl, le_max_left _ _⟩

/-- A charge that the account allows (R130). -/
theorem Account.allows_total {x : Account} {n : Nat} (allowed : x.allows n = true) (limited : x.limited = true) :
    satAdd Config.max32 x.total n ≤ max x.total x.limit := by
  simp only [Account.allows, limited, Bool.not_true, Bool.false_or, Bool.or_eq_true, decide_eq_true_eq] at allowed
  unfold satAdd
  omega

section
variable {R : Retained → Retained → Prop} (moves : ∀ {t r : Retained}, t.Moves r → R t r)
include moves

theorem State.modAccount_acts {s : State} {a : AccountId} {f : Account → Account}
    (h : (f (s.account a)).limited = true → (s.account a).limited = true ∧ (f (s.account a)).limit = (s.account a).limit
      ∧ (f (s.account a)).total ≤ max (s.account a).total (f (s.account a)).limit) :
    State.Acts R s (s.modAccount a f) :=
  .single (.retained _ (moves (Retained.modAccount_moves _ a f h)))

/-! ## Metering (R130 to R134) -/

theorem State.charge_acts {s t : State} {a : AccountId} {c : CtxId} {n : Nat} (h : s.charge a c n = some t) :
    State.Acts R s t := by
  unfold State.charge at h
  split at h
  · rename_i allowed
    cases h
    refine .trans ?_ (State.notes_acts ⟨rfl, rfl, rfl, rfl, rfl, rfl, rfl⟩)
    exact State.modAccount_acts moves fun limited => ⟨limited, rfl, Account.allows_total allowed limited⟩
  · cases h

omit moves in
theorem State.charge_lines {s t : State} {a : AccountId} {c : CtxId} {n : Nat} (h : s.charge a c n = some t) :
    t.lines = s.lines ∧ t.meters = s.meters := by
  unfold State.charge at h
  split at h
  · cases h; exact ⟨rfl, rfl⟩
  · cases h

omit moves in
theorem State.judgeWarning_acts {s : State} {l : LineId} {e : MeterEntry}
    (justified : ∃ e' ∈ s.meter l, e'.ctx = e.ctx) : State.Acts R s (s.judgeWarning l e) := by
  unfold State.judgeWarning
  split
  · refine .trans ?_ (State.queueProgress_acts _ _ _ _)
    exact .single (.meter l _ (.inr justified))
  · exact .refl

omit moves in
theorem State.startUnit_acts {s : State} {l : LineId} {e : MeterEntry} (startsAt : Nat) (price : UnitPrice)
    (justified : ∃ e' ∈ s.meter l, e'.ctx = e.ctx) : State.Acts R s (s.startUnit l e startsAt price) := by
  unfold State.startUnit
  refine .trans ?_ (State.judgeWarning_acts ⟨_, State.setMeter_meter_same _ _ _, rfl⟩)
  refine .trans ?_ (State.notes_acts ⟨rfl, rfl, rfl, rfl, rfl, rfl, rfl⟩)
  exact .single (.meter l _ (.inr justified))

theorem State.meterAnswer_acts {s : State} {l : LineId} {c : CtxId} (connected : (s.line l).state = .connected)
    (held : (s.line l).held = some c) : State.Acts R s (s.meterAnswer l c) := by
  unfold State.meterAnswer
  split
  · exact .refl
  · rename_i a account
    dsimp only
    have opened : ∀ e : MeterEntry, e.ctx = c → State.Acts R s
        ((s.setMeter l (some e)).modAccount a fun x => { x with active := x.active + 1 }) := by
      rintro e rfl
      refine .trans ?_ (State.modAccount_acts moves fun limited => ⟨limited, rfl, le_max_left _ _⟩)
      exact .single (.meter l e (.inl ⟨connected, held⟩))
    split
    · exact .trans (opened _ rfl) (.single (.endsOnLine l .limitReached))
    · rename_i s2 paid
      refine .trans (.trans (opened _ rfl) (State.charge_acts moves paid)) ?_
      split
      · exact .single (.endsOnLine l .limitReached)
      · rename_i s3 paid'
        refine (State.charge_acts moves paid').trans (State.startUnit_acts _ _ ⟨_, ?_, rfl⟩)
        rw [State.meter_congr (State.charge_lines paid').2, State.meter_congr (State.charge_lines paid).2]
        exact State.setMeter_meter_same _ _ _

theorem State.unitStarts_acts (s : State) (l : LineId) : State.Acts R s (s.unitStarts l) := by
  unfold State.unitStarts
  split
  · exact .refl
  · rename_i e entry
    dsimp only
    split
    · exact .single (.endsOnLine l .limitReached)
    · rename_i s1 paid
      refine (State.charge_acts moves paid).trans (State.startUnit_acts _ _ ⟨e, ?_, rfl⟩)
      rw [State.meter_congr (State.charge_lines paid).2]
      exact entry

end

end Sys2Proof.Machine
end

section
/-! PROOF. The answer, the dialling, the entry to SEIZE, the pairing pass and what happens at a line, cut into acts. -/

namespace Sys2Proof.Machine

/-! ## How an outbound attempt moves its line -/

/-- Nothing is being signalled (R57): what a line in DIALING shows between two symbols. -/
structure Line.Silent (y : Line) : Prop where
  drive : y.drive = none
  digitTimer : y.digitTimer = none
  pauseTimer : y.pauseTimer = none
  dialToneTimer : y.dialToneTimer = none
  dialToneWait : y.dialToneWait = false
  classifier : y.classifier.enabled = false

theorem Line.Silent.signalling {y : Line} (h : y.Silent) (state : y.state ≠ .awaitAnswer) : y.SignallingExact := by
  simp [Line.SignallingExact, h.drive, h.digitTimer, h.pauseTimer, h.dialToneTimer, h.dialToneWait, h.classifier, state]

theorem Line.Silent.sending {y : Line} (h : y.Silent) (state : y.state = .dialing) (pos : Nat) (symbol : Symbol) :
    (y.sending pos symbol).SignallingExact := by
  cases symbol <;>
    simp [Line.SignallingExact, Line.sending, Line.listening, h.drive, h.digitTimer, h.pauseTimer, h.dialToneTimer,
      h.dialToneWait, h.classifier, state]

theorem Line.Silent.awaiting {y : Line} (h : y.Silent) (timeout : Nat) : (y.awaiting timeout).SignallingExact := by
  simp [Line.SignallingExact, Line.awaiting, Line.listening, h.drive, h.digitTimer, h.pauseTimer, h.dialToneTimer,
    h.dialToneWait]

/-- A line in a state that neither SEIZE nor DIALING nor AWAIT_ANSWER is silent (R57). -/
theorem Line.SignallingExact.silent {x : Line} (h : x.SignallingExact)
    (state : x.state ≠ .seize ∧ x.state ≠ .dialing ∧ x.state ≠ .awaitAnswer) : x.Silent := by
  obtain ⟨drive, digit, pause, dial, wait, enabled⟩ := h
  obtain ⟨notSeize, notDialing, notAwait⟩ := state
  have noDigit : x.digitTimer = none := Option.not_isSome_iff_eq_none.mp fun k => notDialing (digit k).1
  have noDial : x.dialToneTimer = none := Option.not_isSome_iff_eq_none.mp fun k =>
    (dial k).elim notDialing fun k => notSeize k.1
  refine ⟨?_, noDigit, ?_, noDial, ?_, ?_⟩
  · exact Option.not_isSome_iff_eq_none.mp fun k => by simp [noDigit] at drive; simp [drive] at k
  · exact Option.not_isSome_iff_eq_none.mp fun k => notDialing (pause k).1
  · exact Bool.eq_false_iff.mpr fun k => notSeize (wait k).1
  · exact Bool.eq_false_iff.mpr fun k => (enabled.mp k).elim notAwait fun k => by simp [noDial] at k

/-- What the line shows when a symbol is finished, or the dial tone has come: the timer of what it waited for is stopped. -/
theorem Line.SignallingExact.finished {x : Line} (h : x.SignallingExact) (state : x.state = .dialing) :
    (x.digitTimer.isSome = true → x.drive = none → { x with digitTimer := none }.Silent)
      ∧ (x.pauseTimer.isSome = true → { x with pauseTimer := none }.Silent)
      ∧ (x.dialToneTimer.isSome = true → { x.deaf with dialToneTimer := none }.Silent) := by
  obtain ⟨drive, digit, pause, dial, wait, enabled⟩ := h
  have noWait : x.dialToneWait = false := Bool.eq_false_iff.mpr fun k => by simp [state] at wait; simp [wait] at k
  have deafOf : x.dialToneTimer = none → x.classifier.enabled = false := fun none => Bool.eq_false_iff.mpr fun k => by
    simpa [state, none] using enabled.mp k
  refine ⟨fun k noDrive => ?_, fun k => ?_, fun k => ?_⟩
  · obtain ⟨-, noPause, noDial⟩ := digit k
    exact ⟨noDrive, rfl, noPause, noDial, noWait, deafOf noDial⟩
  · obtain ⟨-, noDial⟩ := pause k
    have noDigit : x.digitTimer = none := Option.not_isSome_iff_eq_none.mp fun d => by simp [(digit d).2.1] at k
    exact ⟨Option.not_isSome_iff_eq_none.mp fun d => by simpa [noDigit] using drive d, noDigit, rfl, noDial, noWait,
      deafOf noDial⟩
  · have noDigit : x.digitTimer = none := Option.not_isSome_iff_eq_none.mp fun d => by simp [(digit d).2.2] at k
    exact ⟨Option.not_isSome_iff_eq_none.mp fun d => by simpa [noDigit] using drive d, noDigit,
      Option.not_isSome_iff_eq_none.mp fun p => by simp [(pause p).2] at k, rfl, noWait, rfl⟩

/-- A seized line in its loop wait is silent, one in its dial-tone wait but for what it listens with (R61, R62). -/
theorem Line.SignallingExact.seized {x : Line} (h : x.SignallingExact) (state : x.state = .seize) :
    x.drive = none ∧ x.digitTimer = none ∧ x.pauseTimer = none
      ∧ (x.dialToneWait = false → x.dialToneTimer = none ∧ x.classifier.enabled = false) := by
  obtain ⟨drive, digit, pause, dial, wait, enabled⟩ := h
  have noDigit : x.digitTimer = none := Option.not_isSome_iff_eq_none.mp fun d => by simpa [state] using (digit d).1
  refine ⟨Option.not_isSome_iff_eq_none.mp fun d => by simpa [noDigit] using drive d, noDigit,
    Option.not_isSome_iff_eq_none.mp fun d => by simpa [state] using (pause d).1, fun noWait => ?_⟩
  have noDial : x.dialToneTimer = none := Option.not_isSome_iff_eq_none.mp fun d => by simpa [state, noWait] using dial d
  exact ⟨noDial, Bool.eq_false_iff.mpr fun k => by simpa [state, noDial] using enabled.mp k⟩

/-- A line that goes on with its attempt, as `y` between two symbols and as `z` behind them. -/
theorem Line.Moves.of_dialling {x z : Line} (before : x.state = .seize ∨ x.state = .dialing)
    (after : z.state = .dialing ∨ z.state = .awaitAnswer) (held : z.held = x.held)
    (signalling : x.SignallingExact → z.SignallingExact) : x.Moves z := by
  refine ⟨?_, ?_, held, ?_, signalling⟩ <;> rcases before with h | h <;> rcases after with k | k <;>
    simp [h, k, LineState.offHook]

/-! ## The answer -/

section
variable {R : Retained → Retained → Prop} (moves : ∀ {t r : Retained}, t.Moves r → R t r)

/-- A line connected from AWAIT_ANSWER or ANSWERING (R69, R99). -/
theorem Line.toConnected_moves {x : Line} {state : LineState} (maxDuration : Nat)
    (h : (x.state = .awaitAnswer ∧ state = .connected) ∨ (x.state = .answering ∧ state = .connectedIn)) :
    x.Moves (x.toConnected state maxDuration) := by
  have deaf : x.SignallingExact → x.state ≠ .seize → x.state ≠ .dialing →
      (x.toConnected state maxDuration).SignallingExact := by
    rintro ⟨drive, digit, pause, dial, wait, -⟩ notSeize notDialing
    simp only [Line.SignallingExact, Line.toConnected, Line.disableClassifier, Classifier.disabled] at *
    simp only [notSeize, notDialing, false_and, or_self, imp_false, Bool.not_eq_true, Option.isSome_eq_false_iff,
      Option.isNone_iff_eq_none] at *
    rcases h with ⟨-, rfl⟩ | ⟨-, rfl⟩ <;> simp_all
  rcases h with ⟨h, rfl⟩ | ⟨h, rfl⟩ <;>
    refine ⟨?_, ?_, rfl, ?_, fun k => deaf k ?_ ?_⟩ <;> simp [h, Line.toConnected, LineState.offHook]

include moves in
theorem State.answer_acts {s : State} {l : LineId} (awaits : (s.line l).state = .awaitAnswer) :
    State.Acts R s (s.answer l) := by
  unfold State.answer
  split
  · exact .refl
  · rename_i c held
    dsimp only
    have lines : ∀ (u : State) (kind : ProgressKind), (u.queueProgressIfAsked c l kind).line l = u.line l := by
      intro u kind
      unfold State.queueProgressIfAsked State.queueProgress
      split
      · split <;> rfl
      · rfl
    refine .trans ?_ (State.meterAnswer_acts moves ?_ ?_)
    · refine .trans ?_ (State.queueProgressIfAsked_acts _ _ _ _)
      refine .trans ?_ (State.notes_acts ⟨rfl, rfl, rfl, rfl, rfl, rfl, rfl⟩)
      exact State.modLine_acts (Line.toConnected_moves _ (.inl ⟨awaits, rfl⟩))
    · rw [lines]; simp [Line.toConnected]
    · rw [lines]; simpa [Line.toConnected, Line.disableClassifier] using held

theorem State.connectedInEntry_acts {s : State} {l : LineId} (answering : (s.line l).state = .answering) :
    State.Acts R s (s.connectedInEntry l) := by
  unfold State.connectedInEntry
  split
  · exact .refl
  · refine .trans ?_ (State.queueProgressIfAsked_acts _ _ _ _)
    refine .trans ?_ (State.notes_acts ⟨rfl, rfl, rfl, rfl, rfl, rfl, rfl⟩)
    exact State.modLine_acts (Line.toConnected_moves _ (.inr ⟨answering, rfl⟩))

/-! ## Dialling -/

include moves in
/-- A symbol begun, or AWAIT_ANSWER entered, on a line that has just become silent `y`. -/
theorem State.beginSymbol_acts {s : State} {l : LineId} {y : Line} (c : CtxId) (pos : Nat)
    (before : (s.line l).state = .seize ∨ (s.line l).state = .dialing) (state : y.state = .dialing)
    (held : y.held = (s.line l).held) (silent : (s.line l).SignallingExact → y.Silent) :
    State.Acts R s ((s.withLine l y).beginSymbol l c pos) := by
  cases symbol : ((s.withLine l y).ctx c).symbolAt pos with
  | some symbol' =>
    rw [State.beginSymbol_some symbol, State.withLine_line_same, State.withLine_withLine]
    refine State.withLine_acts (.of_dialling before (.inl ?_) ?_ fun h => (silent h).sending state _ _)
    · cases symbol' <;> exact state
    · cases symbol' <;> exact held
  | none =>
    rw [State.beginSymbol_none symbol, State.awaitAnswerEntry_eq, State.withLine_line_same, State.withLine_withLine]
    have waits : State.Acts R s (s.withLine l (y.awaiting (s.ctx c).answerTimeout)) :=
      State.withLine_acts (.of_dialling before (.inr rfl) held fun h => (silent h).awaiting _)
    split
    · exact waits.trans (State.answer_acts moves (by simp [Line.awaiting]))
    · exact waits

include moves in
/-- A symbol finished on a line that has just become silent `y` (R63): the next one, or AWAIT_ANSWER. -/
theorem State.finishSymbol_acts {s : State} {l : LineId} {y : Line} (state : y.state = (s.line l).state)
    (held : y.held = (s.line l).held) (silent : (s.line l).SignallingExact → (s.line l).state = .dialing ∧ y.Silent) :
    State.Acts R s ((s.withLine l y).finishSymbol l) := by
  have quiet : State.Acts R s (s.withLine l y) :=
    State.withLine_acts ⟨by rw [state], by rw [state], held, by rw [state]; exact id, fun h =>
      (silent h).2.signalling (by rw [state, (silent h).1]; exact LineState.noConfusion)⟩
  unfold State.finishSymbol
  rw [State.withLine_line_same, state]
  split
  · rename_i dialling
    split
    · exact State.beginSymbol_acts moves _ _ (.inr dialling) (state.trans dialling) held fun h => (silent h).2
    · exact quiet
  · exact quiet

end

end Sys2Proof.Machine
end

section
/-! PROOF. The entry to SEIZE, the pairing pass, and each happening at a line, cut into acts. -/

namespace Sys2Proof.Machine

@[simp] theorem State.queueProgressIfAsked_line (s : State) (c : CtxId) (l k : LineId) (kind : ProgressKind) :
    (s.queueProgressIfAsked c l kind).line k = s.line k := by
  unfold State.queueProgressIfAsked State.queueProgress
  split
  · split <;> rfl
  · rfl

theorem State.grant_line (s : State) (c : CtxId) (l : LineId) : (s.grant c l).line l = (s.line l).toSeize c := by
  unfold State.grant
  simp

/-- Entering DIALING is beginning the first symbol (R63). -/
theorem State.enterDialing_withLine (s : State) (l : LineId) (c : CtxId) (y : Line) :
    (s.withLine l y).enterDialing l c
      = (s.withLine l { y with state := .dialing, dialToneWait := false }).beginSymbol l c 1 := by
  unfold State.enterDialing
  rw [State.withLine_modLine]

/-- The end of the loop wait (R62): the dial-tone wait, or the first symbol. -/
theorem State.loopWaitEnd_eq (s : State) (l : LineId) (c : CtxId) :
    s.loopWaitEnd l c =
      if (s.line l).working.dialToneRequired then
        s.withLine l { (s.line l).listening with
          loopTimer := none, dialToneWait := true, dialToneTimer := some ((s.line l).working.seizeTimeout * 1000) }
      else (s.withLine l { s.line l with loopTimer := none, state := .dialing, dialToneWait := false }).beginSymbol l c 1 := by
  unfold State.loopWaitEnd
  rw [State.modLine_eq_withLine s l fun ln => { ln with loopTimer := none }, State.enterDialing_withLine]
  rfl

/-- The dial tone heard (R62, R66): the first symbol, or the W symbol finished. -/
theorem State.dialToneHeard_eq {s : State} {l : LineId} {c : CtxId} (held : (s.line l).held = some c) :
    s.dialToneHeard l =
      if (s.line l).state = .seize then
        (s.withLine l { (s.line l).deaf with dialToneTimer := none, state := .dialing, dialToneWait := false }).beginSymbol
          l c 1
      else (s.withLine l { (s.line l).deaf with dialToneTimer := none }).finishSymbol l := by
  unfold State.dialToneHeard
  rw [held]
  dsimp only
  rw [State.modLine_eq_withLine, State.enterDialing_withLine]
  rfl

section
variable {R : Retained → Retained → Prop} (moves : ∀ {t r : Retained}, t.Moves r → R t r)
include moves

theorem State.loopWaitEnd_acts {s : State} {l : LineId} (c : CtxId) (seized : (s.line l).state = .seize)
    (noWait : (s.line l).dialToneWait = false) : State.Acts R s (s.loopWaitEnd l c) := by
  rw [State.loopWaitEnd_eq]
  split
  · refine State.withLine_acts ⟨.rfl, rfl, rfl, id, fun h => ?_⟩
    obtain ⟨noDrive, noDigit, noPause, -⟩ := h.seized seized
    simp [Line.SignallingExact, Line.listening, noDrive, noDigit, noPause, seized]
  · refine State.beginSymbol_acts moves _ _ (.inl seized) rfl rfl fun h => ?_
    obtain ⟨noDrive, noDigit, noPause, rest⟩ := h.seized seized
    exact ⟨noDrive, noDigit, noPause, (rest noWait).1, rfl, (rest noWait).2⟩

theorem State.seizeEntry_acts {s : State} {l : LineId} (c : CtxId) (seized : (s.line l).state = .seize)
    (noWait : (s.line l).dialToneWait = false) : State.Acts R s (s.seizeEntry l c).1 := by
  rcases s.seizeEntry_cases l c with ⟨-, h⟩ | ⟨-, h⟩ | ⟨-, h⟩ <;> rw [h]
  · exact State.loopWaitEnd_acts moves c seized noWait
  · exact .single (.faults l (by simp [seized, LineState.offHook]))

theorem State.passLoop_acts (n : Nat) (s : State) : State.Acts R s (State.passLoop n s).1 := by
  refine State.passLoop_induct (P := State.Acts R s) ?_ ?_ n .refl
  · intro t c l o pair _ run
    exact run.trans (.single (.ends c o (.inl (State.firstPair_some pair).1)))
  · intro t c l pair _ run
    obtain ⟨waits, free, -⟩ := State.firstPair_some pair
    refine (run.trans (.single (.grant c l waits free))).trans (State.seizeEntry_acts moves c ?_ ?_) <;>
      rw [State.grant_line] <;> rfl

theorem State.pass_acts (s : State) : State.Acts R s s.pass := by
  unfold State.pass
  split
  · have first := State.passLoop_acts moves s.waiting.all.length s
    split
    · rename_i h; rw [h] at first; exact first
    · rename_i h; rw [h] at first
      exact (first.trans (.single .sweep)).trans (State.passLoop_acts moves _ _)
  · exact .refl

theorem State.faultAndSweep_acts {s : State} {l : LineId} (offHook : (s.line l).state.offHook = true) :
    State.Acts R s (s.faultAndSweep l) :=
  .trans (.trans (.single (.faults l offHook)) (.single .sweep)) (State.pass_acts moves _)

/-! ## Patterns -/

theorem State.patternChanged_acts (s : State) (l : LineId) (p : LoopPattern) : State.Acts R s (s.patternChanged l p) := by
  unfold State.patternChanged
  dsimp only
  split
  · rename_i h; exact State.faultAndSweep_acts moves h.1
  · split
    · rename_i seized
      split
      · split
        · rename_i h; exact State.loopWaitEnd_acts moves _ seized h.2
        · exact .refl
      · exact .refl
    · rename_i awaits
      split
      · exact State.answer_acts moves awaits
      · exact .refl
    · exact State.modLine_acts (.of_same rfl rfl rfl rfl rfl rfl rfl rfl)
    · exact State.modLine_acts (.of_same rfl rfl rfl rfl rfl rfl rfl rfl)
    · rename_i answering
      split
      · exact State.connectedInEntry_acts answering
      · exact .refl
    all_goals exact .refl

theorem State.qualifyPattern_acts (s : State) (l : LineId) : State.Acts R s (s.qualifyPattern l) := by
  unfold State.qualifyPattern
  split
  · exact .trans (State.modLine_acts (.of_same rfl rfl rfl rfl rfl rfl rfl rfl)) (State.patternChanged_acts moves _ _ _)
  · exact .refl

/-! ## Rings and rest -/

end

/-- A silent line may take any state on the hook (R57). -/
theorem Line.SignallingExact.of_resting {x y : Line} (h : x.SignallingExact)
    (state : x.state ≠ .seize ∧ x.state ≠ .dialing ∧ x.state ≠ .awaitAnswer) (state' : y.state ≠ .awaitAnswer)
    (drive : y.drive = x.drive) (digit : y.digitTimer = x.digitTimer) (pause : y.pauseTimer = x.pauseTimer)
    (dial : y.dialToneTimer = x.dialToneTimer) (wait : y.dialToneWait = x.dialToneWait)
    (classifier : y.classifier = x.classifier) : y.SignallingExact := by
  have silent : x.Silent := h.silent state
  exact Line.Silent.signalling ⟨drive ▸ silent.drive, digit ▸ silent.digitTimer, pause ▸ silent.pauseTimer,
    dial ▸ silent.dialToneTimer, wait ▸ silent.dialToneWait, classifier ▸ silent.classifier⟩ state'

section
variable {R : Retained → Retained → Prop} (moves : ∀ {t r : Retained}, t.Moves r → R t r)

theorem State.lineRests_acts {s : State} {l : LineId} (state : (s.line l).state = .ringing ∨ (s.line l).state = .clearing) :
    State.Acts R s (s.lineRests l) := by
  have resting : (s.line l).state ≠ .seize ∧ (s.line l).state ≠ .dialing ∧ (s.line l).state ≠ .awaitAnswer := by
    rcases state with h | h <;> simp [h]
  unfold State.lineRests
  split
  · refine .trans (State.modLine_acts ⟨?_, ?_, rfl, ?_, fun h => ?_⟩) (.single .sweep)
    · rcases state with h | h <;> simp [h]
    · rcases state with h | h <;> simp [h, LineState.offHook]
    · rcases state with h | h <;> simp [h]
    · exact h.of_resting resting LineState.noConfusion rfl rfl rfl rfl rfl rfl
  · refine .single (.joinsFree l _ ?_ ?_ rfl rfl fun h => ?_)
    · rcases state with h | h <;> simp [h, LineState.offHook]
    · rcases state with h | h <;> simp [h]
    · exact h.of_resting resting LineState.noConfusion rfl rfl rfl rfl rfl rfl

include moves

theorem State.ringIn_acts {s : State} {l : LineId} (state : (s.line l).state = .idle ∨ (s.line l).state = .clearing) :
    State.Acts R s (s.ringIn l) := by
  unfold State.ringIn
  refine .trans ?_ (State.pass_acts moves _)
  refine .trans ?_ (State.modLine_acts (.of_same rfl rfl rfl rfl rfl rfl rfl rfl))
  refine .trans ?_ (State.queueUnsolicited_acts _ _)
  refine .single (.leavesFree l (fun ln => { ln with state := .ringing, clearGuard := none, ringGap := none })
    ?_ rfl LineState.noConfusion rfl fun h => ?_)
  · rcases state with h | h <;> simp [h, LineState.offHook]
  · refine h.of_resting ?_ LineState.noConfusion rfl rfl rfl rfl rfl rfl
    rcases state with h | h <;> simp [h]

/-- Glare is its turn, RING_IN in RUNNING, and the pass (R100). -/
theorem State.glare_acts {s : State} {l : LineId} (seized : (s.line l).state = .seize) : State.Acts R s (s.glare l) := by
  unfold State.glare
  dsimp only
  refine .trans ?_ (State.pass_acts moves _)
  have turn : State.Acts R s (s.glareTurn l) := .single (.glare l seized)
  unfold State.glareTurn at turn
  split
  · refine .trans ?_ (State.modLine_acts (.of_same rfl rfl rfl rfl rfl rfl rfl rfl))
    exact .trans turn (State.queueUnsolicited_acts _ _)
  · exact turn

theorem State.ringArrives_acts (s : State) (l : LineId) : State.Acts R s (s.ringArrives l) := by
  unfold State.ringArrives
  split
  · rename_i h; exact State.glare_acts moves h
  · exact State.modLine_acts (.of_same rfl rfl rfl rfl rfl rfl rfl rfl)
  · rename_i h
    split
    · exact State.ringIn_acts moves (.inl h)
    · exact .refl
  · rename_i h
    split
    · exact State.ringIn_acts moves (.inr h)
    · exact .refl
  all_goals exact .refl

theorem State.qualifyRing_acts (s : State) (l : LineId) : State.Acts R s (s.qualifyRing l) := by
  unfold State.qualifyRing
  split
  · exact .trans (State.modLine_acts (.of_same rfl rfl rfl rfl rfl rfl rfl rfl)) (State.ringArrives_acts moves _ _)
  · exact .refl

theorem State.ringGapOut_acts (s : State) (l : LineId) : State.Acts R s (s.ringGapOut l) := by
  unfold State.ringGapOut
  split
  · rename_i h
    dsimp only
    refine .trans ?_ (State.pass_acts moves _)
    refine .trans ?_ (State.modLine_acts (.of_same rfl rfl rfl rfl rfl rfl rfl rfl))
    have rests : State.Acts R s ((s.modLine l fun x => { x with ringGap := none }).lineRests l) :=
      .trans (State.modLine_acts (.of_same rfl rfl rfl rfl rfl rfl rfl rfl))
        (State.lineRests_acts (.inl (by simpa using h.1)))
    split
    · exact rests.trans (State.queueUnsolicited_acts _ _)
    · exact rests
  · exact .refl

theorem State.clearGuardOut_acts (s : State) (l : LineId) : State.Acts R s (s.clearGuardOut l) := by
  unfold State.clearGuardOut
  split
  · rename_i h
    refine .trans ?_ (State.pass_acts moves _)
    exact .trans (State.modLine_acts (.of_same rfl rfl rfl rfl rfl rfl rfl rfl))
      (State.lineRests_acts (.inr (by simpa using h.1)))
  · exact .refl

end

end Sys2Proof.Machine
end

section
/-! PROOF. Timers, the classifier and its reports, due retries and the ends that the engine makes, cut into acts. -/

namespace Sys2Proof.Machine

/-! ## The classifier changes nothing that acts look at -/

/-- Line `y` differs from `x` in the classifier but not in its being enabled, in its reports, and in the inputs. -/
structure Line.ToneOnly (x y : Line) : Prop where
  state : y.state = x.state
  held : y.held = x.held
  drive : y.drive = x.drive
  digitTimer : y.digitTimer = x.digitTimer
  pauseTimer : y.pauseTimer = x.pauseTimer
  dialToneTimer : y.dialToneTimer = x.dialToneTimer
  dialToneWait : y.dialToneWait = x.dialToneWait
  enabled : y.classifier.enabled = x.classifier.enabled

theorem Line.ToneOnly.trans {x y z : Line} (h : x.ToneOnly y) (k : y.ToneOnly z) : x.ToneOnly z :=
  ⟨k.state.trans h.state, k.held.trans h.held, k.drive.trans h.drive, k.digitTimer.trans h.digitTimer,
    k.pauseTimer.trans h.pauseTimer, k.dialToneTimer.trans h.dialToneTimer, k.dialToneWait.trans h.dialToneWait,
    k.enabled.trans h.enabled⟩

theorem Line.ToneOnly.moves {x y : Line} (h : x.ToneOnly y) : x.Moves y :=
  .of_same h.state h.held h.drive (congrArg _ h.digitTimer) (congrArg _ h.pauseTimer) (congrArg _ h.dialToneTimer)
    h.dialToneWait h.enabled

theorem Line.setClass_toneOnly (ln : Line) (cls : ToneClass) : ln.ToneOnly (ln.setClass cls) := by
  unfold Line.setClass
  split <;> exact ⟨rfl, rfl, rfl, rfl, rfl, rfl, rfl, rfl⟩

theorem Line.breakRun_toneOnly (ln : Line) : ln.ToneOnly ln.breakRun := ⟨rfl, rfl, rfl, rfl, rfl, rfl, rfl, rfl⟩

theorem Line.openPeriod_toneOnly (ln : Line) (on : Bool) (cycleOn : Option Nat) : ln.ToneOnly (ln.openPeriod on cycleOn) :=
  ⟨rfl, rfl, rfl, rfl, rfl, rfl, rfl, rfl⟩

theorem Line.loseCadence_toneOnly (ln : Line) : ln.ToneOnly ln.loseCadence :=
  ln.breakRun_toneOnly.trans (Line.setClass_toneOnly _ _)

theorem Line.shortCycle_toneOnly (ln : Line) (kind : MatchKind) : ln.ToneOnly (ln.shortCycle kind) := by
  have counted : ∀ (n : Nat) (k : Option MatchKind),
      ln.ToneOnly { ln with classifier := { ln.classifier with matchCount := n, matchKind := k } } :=
    fun _ _ => ⟨rfl, rfl, rfl, rfl, rfl, rfl, rfl, rfl⟩
  unfold Line.shortCycle
  dsimp only
  generalize (if ln.classifier.matchKind = some kind then min (ln.classifier.matchCount + 1) 2 else 1) = count
  split
  · exact .trans (counted _ _) (Line.setClass_toneOnly _ _)
  · exact counted _ _

theorem Line.judgeCycle_toneOnly (ln : Line) (on off : Nat) : ln.ToneOnly (ln.judgeCycle on off) := by
  unfold Line.judgeCycle
  split
  · exact ln.shortCycle_toneOnly _
  · exact ln.shortCycle_toneOnly _
  · exact ln.breakRun_toneOnly.trans (Line.setClass_toneOnly _ _)
  · exact ln.loseCadence_toneOnly

theorem Line.toneChanged_toneOnly (ln : Line) (present : Bool) : ln.ToneOnly (ln.toneChanged present) := by
  unfold Line.toneChanged
  split
  · split
    · unfold Line.toneReturns
      split
      · split
        · exact (ln.judgeCycle_toneOnly _ _).trans (Line.openPeriod_toneOnly _ _ _)
        · exact ln.openPeriod_toneOnly _ _
      · exact ln.openPeriod_toneOnly _ _
    · unfold Line.toneStops
      dsimp only
      have ended : ln.ToneOnly (if ln.classifier.cls = .dial then ln.setClass .unknown else ln) := by
        split
        · exact ln.setClass_toneOnly _
        · exact ⟨rfl, rfl, rfl, rfl, rfl, rfl, rfl, rfl⟩
      split <;> exact ended.trans (Line.openPeriod_toneOnly _ _ _)
  · exact ⟨rfl, rfl, rfl, rfl, rfl, rfl, rfl, rfl⟩

theorem Line.dialMark_toneOnly (ln : Line) : ln.ToneOnly ln.dialMark := by
  unfold Line.dialMark
  split
  · refine .trans ?_ (Line.setClass_toneOnly _ _)
    exact ⟨rfl, rfl, rfl, rfl, rfl, rfl, rfl, rfl⟩
  · exact ⟨rfl, rfl, rfl, rfl, rfl, rfl, rfl, rfl⟩

theorem Line.offOverrun_toneOnly (ln : Line) : ln.ToneOnly ln.offOverrun := by
  unfold Line.offOverrun
  split
  · refine .trans ?_ (Line.loseCadence_toneOnly _)
    exact ⟨rfl, rfl, rfl, rfl, rfl, rfl, rfl, rfl⟩
  · exact ⟨rfl, rfl, rfl, rfl, rfl, rfl, rfl, rfl⟩

section
variable {R : Retained → Retained → Prop} (moves : ∀ {t r : Retained}, t.Moves r → R t r)

theorem State.qualifyTone_acts (s : State) (l : LineId) : State.Acts R s (s.qualifyTone l) := by
  unfold State.qualifyTone
  split
  · refine State.modLine_acts (Line.Moves.trans ?_ (Line.toneChanged_toneOnly _ _).moves)
    exact .of_same rfl rfl rfl rfl rfl rfl rfl rfl
  · exact .refl

theorem State.qualifyQuiet_acts (s : State) (l : LineId) : State.Acts R s (s.qualifyQuiet l) := by
  unfold State.qualifyQuiet
  split
  · exact State.modLine_acts (.of_same rfl rfl rfl rfl rfl rfl rfl rfl)
  · exact .refl

/-! ## Timers -/

/-- A guarded ending step of a line: no act, or the ending step. -/
theorem State.endOnLine_acts_if (s : State) (l : LineId) (o : CallOutcome) (p : Prop) [Decidable p] :
    State.Acts R s (if p then s.endOnLine l o else s) := by
  split
  · exact .single (.endsOnLine l o)
  · exact .refl

theorem State.farClearOut_acts (s : State) (l : LineId) : State.Acts R s (s.farClearOut l) := by
  unfold State.farClearOut
  split
  · split
    · exact .single (.endsOnLine l _)
    · exact .single (.endsOnLine l _)
    all_goals exact .refl
  · exact .refl

include moves

theorem State.digitTimerRunsOut_acts (s : State) (l : LineId) : State.Acts R s (s.digitTimerRunsOut l) := by
  unfold State.digitTimerRunsOut State.digitTimerOut
  split
  · rename_i timed
    split
    · refine State.modLine_acts ⟨.rfl, rfl, rfl, id, fun h => ?_⟩
      obtain ⟨-, digit, pause, dial, wait, enabled⟩ := h
      obtain ⟨dialling, noPause, noDial⟩ := digit timed
      exact ⟨fun k => by simp at k, fun _ => ⟨dialling, noPause, noDial⟩, pause, dial, wait, enabled⟩
    · rename_i noDrive
      refine State.finishSymbol_acts moves rfl rfl fun h => ?_
      have dialling := (h.2.1 timed).1
      exact ⟨dialling, (h.finished dialling).1 timed (Option.not_isSome_iff_eq_none.mp noDrive)⟩
  · exact .refl

theorem State.pauseTimerOut_acts (s : State) (l : LineId) : State.Acts R s (s.pauseTimerOut l) := by
  unfold State.pauseTimerOut
  split
  · rename_i timed
    refine State.finishSymbol_acts moves rfl rfl fun h => ?_
    have dialling := (h.2.2.1 timed).1
    exact ⟨dialling, (h.finished dialling).2.1 timed⟩
  · exact .refl

/-! ## Classifier reports -/

theorem State.dialToneHeard_acts {s : State} {l : LineId}
    (waits : (s.line l).state = .seize
      ∨ ((s.line l).state = .dialing ∧ (s.line l).dialToneTimer.isSome = true)) :
    State.Acts R s (s.dialToneHeard l) := by
  cases held : (s.line l).held with
  | none => unfold State.dialToneHeard; rw [held]
  | some c =>
    rw [State.dialToneHeard_eq held]
    split
    · rename_i seized
      refine State.beginSymbol_acts moves _ _ (.inl seized) rfl rfl fun h => ?_
      obtain ⟨noDrive, noDigit, noPause, -⟩ := h.seized seized
      exact ⟨noDrive, noDigit, noPause, rfl, rfl, rfl⟩
    · rename_i notSeized
      obtain ⟨dialling, timed⟩ := waits.resolve_left notSeized
      exact State.finishSymbol_acts moves rfl rfl fun h => ⟨dialling, (h.finished dialling).2.2 timed⟩

theorem State.classTaken_acts (s : State) (l : LineId) (cls : ToneClass) : State.Acts R s (s.classTaken l cls) := by
  unfold State.classTaken
  dsimp only
  split
  · rename_i seized
    split
    · exact State.dialToneHeard_acts moves (.inl seized)
    · exact .refl
  · rename_i dialling
    split
    · rename_i h; exact State.dialToneHeard_acts moves (.inr ⟨dialling, h.1⟩)
    · exact .refl
  · split
    · unfold State.ringingHeard
      split
      · exact State.queueProgressIfAsked_acts _ _ _ _
      · exact .refl
    · exact .single (.endsOnLine l _)
    · exact .single (.endsOnLine l _)
    all_goals exact .refl
  all_goals exact .refl

theorem State.takeClassReport_acts (s : State) (l : LineId) : State.Acts R s (s.takeClassReport l) := by
  unfold State.takeClassReport
  split
  · exact .refl
  · dsimp only
    have taken : ∀ rest, State.Acts R s (s.modLine l fun x => { x with reports := rest }) :=
      fun _ => State.modLine_acts (.of_same rfl rfl rfl rfl rfl rfl rfl rfl)
    split
    · exact taken _
    · exact (taken _).trans (State.classTaken_acts moves _ _ _)

/-! ## Due retries and the ends that the engine makes -/

theorem State.handOn_acts {s : State} {c : CtxId} (head : s.dueHead = some c) : State.Acts R s (s.handOn c) := by
  unfold State.handOn
  dsimp only
  split
  · unfold State.admitDue
    refine .trans ?_ (State.pass_acts moves _)
    have same : (((s.unschedule c).modCtx c fun x => { x with due := none }).modCtx c fun x => { x with state := .pending })
        = (s.unschedule c).modCtx c fun x => { x with state := .pending, due := none } := by
      simp [State.modCtx]
    rw [same]
    have origin : (((s.unschedule c).modCtx c fun x => { x with due := none }).ctx c).origin = (s.ctx c).origin := by
      simp
    rw [origin]
    exact .single (.due c head)
  · exact .single (.dueLost c head)

theorem State.dueLoop_acts (n : Nat) (s : State) : State.Acts R s (State.dueLoop n s) :=
  State.dueLoop_induct (P := State.Acts R s) (fun _ _ head run => run.trans (State.handOn_acts moves head)) n .refl

omit moves in
theorem State.endEach_acts (s : State) {which : CtxState → Bool} (o : CallOutcome)
    (active : ∀ st, which st = true → st.isActive = true) : State.Acts R s (s.endEach which o) :=
  State.endEach_induct (P := State.Acts R s) which o
    (fun _ c h run => run.trans (.single (.ends c o (.inr (active _ h))))) .refl

omit moves in
theorem State.judgeDrain_acts (s : State) : State.Acts R s s.judgeDrain := by
  rcases s.judgeDrain_cases with ⟨draining, -, h⟩ | ⟨-, h⟩ <;> rw [h]
  · exact .single (.frame _ _ _ _ _ _ fun halted => (by rw [draining] at halted; cases halted))

omit moves in
theorem State.judgeAbort_acts (s : State) : State.Acts R s s.judgeAbort := by
  rcases s.judgeAbort_cases with ⟨aborting, -, h⟩ | ⟨-, h⟩ <;> rw [h]
  · exact .single (.frame _ _ _ _ _ _ fun halted => (by rw [aborting] at halted; cases halted))

omit moves in
/-- A happening at a line is acted on or not; the drain condition is judged behind it (R79, R161). -/
theorem State.atLine_acts {s : State} {f : State → State} (h : State.Acts R s (f s)) : State.Acts R s (s.atLine f) := by
  rcases s.atLine_cases f with ⟨-, k⟩ | ⟨-, k⟩ <;> rw [k]
  exact h.trans (State.judgeDrain_acts _)

theorem State.uptimeRises_acts (s : State) : State.Acts R s s.uptimeRises := by
  unfold State.uptimeRises
  dsimp only
  split
  · have risen : State.Acts R s { s with uptimeMs := 0, uptime := s.uptime + 1 } := .single (.frame _ _ _ _ _ _ id)
    split
    · exact risen.trans (State.dueLoop_acts moves _ _)
    · exact risen
  · exact .single (.frame _ _ _ _ _ _ id)

end

end Sys2Proof.Machine
end

section
/-! PROOF. The control block, the rings, the report writer, the resets and the retained tables, cut into acts. -/

namespace Sys2Proof.Machine

/-! ## Rings replaced -/

@[simp] theorem State.setRing_setRing (s : State) (r : OrderRing) (x y : Ring) :
    (s.setRing r x).setRing r y = s.setRing r y := by cases r <;> rfl

theorem State.modRing_eq_setRing (s : State) (r : OrderRing) (f : Ring → Ring) :
    s.modRing r f = s.setRing r (f (s.ring r)) := rfl

@[simp] theorem State.setRing_modRing (s : State) (r : OrderRing) (x : Ring) (f : Ring → Ring) :
    (s.setRing r x).modRing r f = s.setRing r (f x) := by cases r <;> rfl

/-- A take from a ring with a record leaves the ring within its size (R24). -/
theorem Ring.Bounded.take {x : Ring} (h : x.Bounded) (record : x.hasRecord = true) :
    { x with consumer := x.consumer + 1 }.Bounded := by
  intro sound
  have bound := h sound
  simp only [Ring.hasRecord, Bool.and_eq_true, decide_eq_true_eq] at record
  have ahead := record.2
  show (x.cachedProducer - (x.consumer + 1)).toNat ≤ x.size
  bv_omega

theorem Ring.Bounded.considered {x : Ring} (h : x.Bounded) (need : Need) (isFree : Bool) :
    (x.considered need isFree).Bounded := by
  rcases x.considered_cases need isFree with k | ⟨active, -, k⟩ | ⟨active, -, -, k⟩ <;> rw [k]
  · exact h
  all_goals exact fun _ => h (by rw [active]; exact RingState.noConfusion)

theorem Ring.Bounded.released {x : Ring} (h : x.Bounded) (need : Need) : (x.released need).Bounded := by
  unfold Ring.released
  split
  · rename_i held; exact fun _ => h (by rw [held]; exact RingState.noConfusion)
  · exact h

theorem Ring.bounded_of_not_tooFar {x : Ring} (h : tooFarAhead x.cachedProducer x.consumer x.size = false) :
    x.Bounded := fun _ => Nat.le_of_not_lt (of_decide_eq_false h)

theorem Ring.bounded_of_faulted {x : Ring} (h : x.state = .faulted) : x.Bounded := fun k => absurd h k

/-! ## The signal state -/

/-- The report writer that raises SIG keeps the signal state (R153). -/
theorem State.signalKept_raise (s : State) {w : ReportWriter} (batch : 1 ≤ w.batch) :
    ({ s with report := w.raise } : State).SignalKept :=
  ⟨batch, fun k => absurd rfl k, fun _ k => Bool.noConfusion k⟩

theorem State.SignalKept.countPost {s : State} (h : s.SignalKept) (urgent : Bool) :
    ({ s with report := s.report.countPost urgent } : State).SignalKept := by
  obtain ⟨batch, timed, quiet⟩ := h
  have quiet' : s.ctl.engine ≠ .halted → (s.report.countPost urgent).QuietWhenClear := fun running =>
    ReportWriter.countPost_quietWhenClear urgent (quiet running)
  have counted : 0 < s.report.counted.unsignalled := by
    show 0 < min (s.report.unsignalled + 1) 255
    omega
  refine ⟨?_, ?_, quiet'⟩ <;>
    rcases s.report.countPost_cases urgent with k | ⟨-, k⟩ | ⟨-, k | k⟩ <;> simp only [k]
  any_goals exact batch
  · exact fun k => absurd rfl k
  all_goals exact fun _ => counted

theorem State.SignalKept.holdOut {s : State} (h : s.SignalKept) :
    ({ s with report := s.report.holdOut } : State).SignalKept := by
  unfold ReportWriter.holdOut
  split
  · rename_i left running
    split
    · rename_i pending
      exact ⟨h.1, fun _ => h.2.1 (by rw [running]; exact HoldTimer.noConfusion), fun _ k => by
        rw [show s.report.sigPending = false from k] at pending; cases pending⟩
    · exact s.signalKept_raise h.1
  all_goals exact h

theorem State.SignalKept.tick {s : State} (h : s.SignalKept) :
    ({ s with report := { s.report with holdTimer := s.report.holdTimer.tick } } : State).SignalKept := by
  obtain ⟨batch, timed, quiet⟩ := h
  refine ⟨batch, fun k => timed fun stopped => k ?_, fun running clear => ⟨(quiet running clear).1, fun k => ?_⟩⟩
  · show s.report.holdTimer.tick = .stopped
    rw [stopped]; rfl
  · have expired := (quiet running clear).2
    change s.report.holdTimer.tick = .expired at k
    cases timer : s.report.holdTimer with
    | expired => exact expired timer
    | stopped => rw [timer] at k; cases k
    | running left => rw [timer] at k; cases k

theorem State.SignalKept.acknowledge {s : State} (h : s.SignalKept) :
    ({ s with report := s.report.acknowledge (decide (s.ctl.engine = .halted)) } : State).SignalKept := by
  obtain ⟨batch, timed, quiet⟩ := h
  cases pending : s.report.sigPending with
  | false => rw [ReportWriter.acknowledge_of_clear _ pending]; exact ⟨batch, timed, quiet⟩
  | true =>
    by_cases halted : s.ctl.engine = .halted
    · rw [ReportWriter.acknowledge_clears pending (.inr (decide_eq_true halted))]
      exact ⟨batch, timed, fun running => absurd halted running⟩
    · rw [decide_eq_false halted]
      by_cases due : s.report.CallsForRaise
      · rw [ReportWriter.acknowledge_raises pending due]
        exact s.signalKept_raise batch
      · rw [ReportWriter.acknowledge_clears pending (.inl due)]
        refine ⟨batch, timed, fun _ _ => ?_⟩
        by_cases counted : 0 < s.report.unsignalled
        · exact ⟨Nat.lt_of_not_le fun full => due ⟨counted, .inr full⟩, fun expired => due ⟨counted, .inl expired⟩⟩
        · exact ⟨show s.report.unsignalled < s.report.batch by omega, fun expired =>
            counted (timed (by rw [expired]; exact HoldTimer.noConfusion))⟩

/-- Step 1 of START (R155, R160): SIG is raised when the kept count has reached the new batch count. -/
theorem State.SignalKept.setup {s : State} (h : s.SignalKept) {w : ReportWriter} (batch : 1 ≤ w.batch)
    (pending : w.sigPending = s.report.sigPending) (timer : w.holdTimer = s.report.holdTimer)
    (count : w.unsignalled = s.report.unsignalled) :
    ({ s with report := if !w.sigPending && decide (w.batch ≤ w.unsignalled) then w.raise else w } : State).SignalKept := by
  split
  · exact s.signalKept_raise batch
  · rename_i quiet
    simp only [Bool.and_eq_true, Bool.not_eq_true', decide_eq_true_eq, not_and, Nat.not_le] at quiet
    refine ⟨batch, fun k => ?_, fun running clear => ⟨quiet clear, ?_⟩⟩
    · show 0 < w.unsignalled
      rw [count]; exact h.2.1 (timer ▸ k)
    · show w.holdTimer ≠ .expired
      rw [timer]; exact (h.2.2 running (pending ▸ clear)).2

/-! ## The retained tables -/

theorem Retained.Limited.of_total {t r : Retained}
    (h : ∀ a : AccountId, r.accounts[a].limited = true →
      t.accounts[a].limited = true ∧ r.accounts[a].limit = t.accounts[a].limit
        ∧ r.accounts[a].total ≤ t.accounts[a].total) : t.Limited r := by
  intro a limited
  obtain ⟨limitedT, limit, total⟩ := h a limited
  exact ⟨limitedT, limit, le_max_of_le_left total⟩

theorem Retained.setPrefixes_tidy (t : Retained) (v : Vector (Option PrefixEntry) 64) : t.Tidy (t.setPrefixes v) :=
  ⟨fun ⟨_, bands, accounts, policies, calendar⟩ => ⟨isSound_checkOf _, bands, accounts, policies, calendar⟩, id⟩

theorem Retained.setBands_tidy (t : Retained) (v : Vector (Vector (Option Band) 4) 15) : t.Tidy (t.setBands v) :=
  ⟨fun ⟨prefixes, _, accounts, policies, calendar⟩ => ⟨prefixes, isSound_checkOf _, accounts, policies, calendar⟩, id⟩

theorem Retained.setAccounts_tidy (t : Retained) (v : Vector Account 32) : t.Tidy (t.setAccounts v) :=
  ⟨fun ⟨prefixes, bands, _, policies, calendar⟩ => ⟨prefixes, bands, isSound_checkOf _, policies, calendar⟩, id⟩

theorem Retained.setPolicies_tidy (t : Retained) (v : Vector (Option Policy) 8)
    (h : t.PoliciesInRange → ∀ i : Fin 8, ∀ p ∈ v[i], p.InRange) : t.Tidy (t.setPolicies v) :=
  ⟨fun ⟨prefixes, bands, accounts, _, calendar⟩ => ⟨prefixes, bands, accounts, isSound_checkOf _, calendar⟩, h⟩

theorem Retained.setCalendar_tidy (t : Retained) (c : Calendar) : t.Tidy (t.setCalendar c) :=
  ⟨fun ⟨prefixes, bands, accounts, policies, _⟩ => ⟨prefixes, bands, accounts, policies, isSound_checkOf _⟩, id⟩

theorem Retained.moveCalendar_moves (t : Retained) (c : Calendar) : t.Moves (t.moveCalendar c) :=
  ⟨⟨fun ⟨prefixes, bands, accounts, policies, calendar⟩ =>
    ⟨prefixes, bands, accounts, policies, (t.moveCalendar_sound c).trans calendar⟩, id⟩, .of_accounts rfl⟩

/-- Milliseconds are not among the calendar's words (log 7). -/
theorem Retained.countMs_moves (t : Retained) (ms : Nat) :
    t.Moves { t with calendar := { t.calendar with ms := ms } } := ⟨⟨id, id⟩, .of_accounts rfl⟩

theorem Retained.checkPrefixes_moves (t : Retained) : t.Moves t.checkPrefixes.1 := by
  unfold Retained.checkPrefixes
  split
  · exact .refl t
  · exact ⟨t.setPrefixes_tidy _, .of_accounts rfl⟩

theorem Retained.checkBands_moves (t : Retained) : t.Moves t.checkBands.1 := by
  unfold Retained.checkBands
  split
  · exact .refl t
  · exact ⟨t.setBands_tidy _, .of_accounts rfl⟩

theorem Retained.checkAccounts_moves (t : Retained) : t.Moves t.checkAccounts.1 := by
  unfold Retained.checkAccounts
  split
  · exact .refl t
  · refine ⟨t.setAccounts_tidy _, fun a limited => ?_⟩
    simp [Retained.setAccounts, Account.cleared] at limited

theorem Retained.checkPolicies_moves (t : Retained) : t.Moves t.checkPolicies.1 := by
  unfold Retained.checkPolicies
  split
  · exact .refl t
  · exact ⟨t.setPolicies_tidy _ fun _ i p present => by simp at present, .of_accounts rfl⟩

theorem Retained.checkCalendar_moves (t : Retained) : t.Moves t.checkCalendar.1 := by
  unfold Retained.checkCalendar
  split
  · exact .refl t
  · exact ⟨t.setCalendar_tidy _, .of_accounts rfl⟩

theorem Retained.clearActive_moves (t : Retained) : t.Moves t.clearActive := by
  refine ⟨t.setAccounts_tidy _, .of_total fun a limited => ?_⟩
  have cleared : t.clearActive.accounts[a] = { t.accounts[a] with active := 0 } := by
    simp [Retained.clearActive, Retained.setAccounts]
  rw [cleared] at limited ⊢
  exact ⟨limited, rfl, le_refl _⟩

/-- The checks of the five tables follow one another, the active counts are set behind them (R164). -/
theorem Retained.checked_fst (t : Retained) :
    t.checked.1 = t.checkPrefixes.1.checkBands.1.checkAccounts.1.checkPolicies.1.checkCalendar.1.clearActive := by
  unfold Retained.checked
  generalize t.checkPrefixes = x1
  obtain ⟨t1, p⟩ := x1
  dsimp only

/-- The check of the retained tables (R164, R165), table by table. -/
theorem Retained.checked_moves (t : Retained) : t.Moves t.checked.1 := by
  have bands := t.checkPrefixes_moves.trans (Retained.checkBands_moves _)
  have policies := (bands.trans (Retained.checkAccounts_moves _)).trans (Retained.checkPolicies_moves _)
  have calendar := (policies.trans (Retained.checkCalendar_moves _)).trans (Retained.clearActive_moves _)
  rw [t.checked_fst]
  exact calendar

section
variable {R : Retained → Retained → Prop} (moves : ∀ {t r : Retained}, t.Moves r → R t r)

/-! ## Memory, rings, the report writer -/

theorem State.storeCells_acts (s : State) (base : Word) (cells : List (Nat × Byte)) :
    State.Acts R s (s.storeCells base cells) := .single (.memory _ (Memory.writeCells_wf base cells))

theorem State.hostStores_acts (s : State) (stores : HostStores) : State.Acts R s (s.hostStores stores) :=
  .single (.memory _ (Memory.hostStores_wf stores))

theorem State.modCtl_acts {s : State} {f : Control → Control}
    (h : s.ctl.engine = .halted → (f s.ctl).engine = .halted) : State.Acts R s (s.modCtl f) :=
  .single (.frame _ _ _ _ _ _ h)

theorem State.setError_acts (s : State) (e : ErrorCode) : State.Acts R s (s.setError e) := State.modCtl_acts id

theorem State.setRing_acts {s : State} {r : OrderRing} {x : Ring} (h : (s.ring r).Bounded → x.Bounded) :
    State.Acts R s (s.setRing r x) := by
  cases r with
  | urgent =>
    refine .single (.rings { s.intake with urgent := x } fun q bounded => ?_)
    cases q with
    | urgent => exact h bounded
    | routine => exact bounded
  | routine =>
    refine .single (.rings { s.intake with routine := x } fun q bounded => ?_)
    cases q with
    | urgent => exact bounded
    | routine => exact h bounded

theorem State.modRing_acts {s : State} {r : OrderRing} {f : Ring → Ring}
    (h : (s.ring r).Bounded → (f (s.ring r)).Bounded) : State.Acts R s (s.modRing r f) := State.setRing_acts h

theorem State.considerRing_acts (s : State) (r : OrderRing) (need : Need) : State.Acts R s (s.considerRing r need) :=
  State.modRing_acts fun h => h.considered _ _

theorem State.considerHeads_acts (s : State) (r : OrderRing) (need : Need) : State.Acts R s (s.considerHeads r need) :=
  (s.considerRing_acts r need).trans (State.considerRing_acts _ _ _)

theorem State.setStreak_acts (s : State) (n : Nat) : State.Acts R s (s.setStreak n) :=
  .single (.rings _ fun q bounded => by cases q <;> exact bounded)

theorem State.releaseRings_acts (s : State) (need : Need) : State.Acts R s (s.releaseRings need) :=
  .trans (State.modRing_acts fun h => h.released need) (State.modRing_acts fun h => h.released need)

/-- The entry to HALTED from where the state stands (R166). -/
theorem State.halt_acts (s : State) (cause : ErrorCode) : State.Acts R s (s.halt cause) :=
  .single (.halts s.ctl s.intake s.report s.lines cause rfl id fun _ => .refl _)

/-- What follows the outbox's head being posted (R148 steps 4 and 5, R161, R162). -/
theorem State.finishPost_acts {s : State} {e : OutboxEntry} {rest : List OutboxEntry} (head : s.report.outbox = e :: rest) :
    State.Acts R s (s.finishPost e rest) := by
  have posted : State.Acts R s ((s.modReport fun w => { w with outbox := rest }).clearPosted e.body) :=
    .single (.posted e rest head)
  have freed : State.Acts R s ((s.modReport fun w => { w with outbox := rest }).freeEntry e.body) := by
    unfold State.freeEntry
    unfold State.clearPosted at posted
    cases body : e.body with
    | callEnd c =>
      simp only [body] at posted
      dsimp only
      split
      · rename_i ended
        rw [if_pos ended] at posted
        exact posted.trans (State.releaseRings_acts _ _)
      · rename_i other
        rw [if_neg other] at posted
        exact posted
    | done d => simp only [body] at posted; exact posted.trans (State.releaseRings_acts _ _)
    | progress p => simp only [body] at posted; exact posted
    | unsolicited u =>
      simp only [body] at posted
      exact posted.trans (State.writer_acts rfl rfl rfl rfl rfl id)
  unfold State.finishPost
  refine .trans ?_ (State.judgeAbort_acts _)
  refine .trans ?_ (State.judgeDrain_acts _)
  refine freed.trans ?_
  have same : ∀ (w : ReportWriter) (u : Bool), (w.countPost u).outbox = w.outbox ∧ (w.countPost u).adopted = w.adopted
      ∧ (w.countPost u).producer = w.producer ∧ (w.countPost u).cachedConsumer = w.cachedConsumer
      ∧ (w.countPost u).size = w.size := by
    intro w u
    rcases w.countPost_cases u with k | ⟨-, k⟩ | ⟨-, k | k⟩ <;> rw [k] <;> exact ⟨rfl, rfl, rfl, rfl, rfl⟩
  obtain ⟨outbox, adopted, producer, cached, size⟩ := same
    ((s.modReport fun w => { w with outbox := rest }).freeEntry e.body).report e.urgent
  exact State.writer_acts outbox adopted producer cached size fun h => h.countPost _

/-- Steps 1 and 2 of a post into a ring that is not full (R148). -/
theorem State.writeRecord_acts {s : State} (room : s.mayPost = true) (e : OutboxEntry) :
    State.Acts R s (s.writeRecord e) := by
  refine (s.storeCells_acts _ _).trans (.single (.writer _ rfl (fun bounded running => ?_) id))
  obtain ⟨urgent, routine, report⟩ := bounded running
  refine ⟨urgent, routine, fun adopted => ?_⟩
  have bound : (s.report.producer - s.report.cachedConsumer).toNat ≤ s.report.size := report adopted
  simp only [State.mayPost, ReportWriter.isFull, Bool.and_eq_true, Bool.not_eq_true', decide_eq_false_iff_not] at room
  have notFull := room.2
  show (s.report.producer + 1 - s.report.cachedConsumer).toNat ≤ s.report.size
  bv_omega

theorem State.takePost_acts (s : State) (bus : PostBus) : State.Acts R s (s.takePost bus) := by
  unfold State.takePost
  split
  · exact .refl
  · rename_i e rest head
    split
    · rename_i room
      unfold State.postEntry
      split
      · exact (s.storeCells_acts _ _).trans (State.halt_acts _ _)
      · exact (State.writeRecord_acts room e).trans (State.halt_acts _ _)
      · refine .trans ?_ (State.finishPost_acts head)
        exact (State.writeRecord_acts room e).trans (State.storeCells_acts _ _ _)
    · exact .refl

/-! ## START, QUIESCE, ABORT and POST -/

theorem State.faultRing_acts (s : State) (r : OrderRing) : State.Acts R s (s.faultRing r) := by
  unfold State.faultRing
  refine .trans ?_ (State.queueUnsolicited_acts _ _)
  refine .trans (State.modRing_acts fun _ => Ring.bounded_of_faulted rfl) (State.modCtl_acts ?_)
  cases r <;> exact id

theorem State.faultRing_setRing (s : State) (r : OrderRing) (x : Ring) :
    (s.setRing r x).faultRing r
      = ((s.setRing r { x with state := .faulted }).modCtl fun k => k.flagRing r).queueUnsolicited (.ringFault r) := by
  unfold State.faultRing
  rw [State.setRing_modRing]

/-- A ring adopted from where it has been placed (R25). -/
theorem State.adoptRing_acts (s : State) (p : Setup) (r : OrderRing) :
    State.Acts R s ((s.placeRing p r).adoptRing r) := by
  unfold State.adoptRing State.placeRing
  dsimp only
  rw [State.modRing_eq_setRing, State.setRing_setRing]
  split
  · rw [State.faultRing_setRing]
    refine .trans ?_ (State.queueUnsolicited_acts _ _)
    refine .trans (State.setRing_acts fun _ => Ring.bounded_of_faulted rfl) (State.modCtl_acts ?_)
    cases r <;> exact id
  · rename_i near
    rw [State.setRing_modRing]
    exact State.setRing_acts fun _ => Ring.bounded_of_not_tooFar (Bool.eq_false_iff.mpr near)

theorem State.adoptOrderRings_acts (p : Setup) (bus : StartBus) (rs : List OrderRing) (s : State)
    (active : s.ctl.engine ≠ .halted) : State.Acts R s (State.adoptOrderRings p bus rs s) := by
  induction rs generalizing s with
  | nil =>
    exact (s.setStreak_acts 0).trans (State.modCtl_acts fun halted => absurd halted active)
  | cons r rest ih =>
    rw [State.adoptOrderRings]
    split
    · have halted := State.Act.halts (R := R) (s := s) s.ctl (s.placeRing p r).intake s.report s.lines .memoryFault rfl id
        fun _ => .refl _
      cases r <;> exact .single halted
    · refine (State.adoptRing_acts s p r).trans (ih _ ?_)
      have engine : ∀ u : State, (u.adoptRing r).ctl.engine = u.ctl.engine := by
        intro u
        unfold State.adoptRing State.faultRing State.queueUnsolicited
        dsimp only
        split
        · split <;> cases r <;> rfl
        · cases r <;> rfl
      rw [engine]
      cases r <;> exact active

/-- A batch count that a valid setup block gives (R159). -/
theorem setupOf_batch {rd : Nat → Byte} {p : Setup} (h : setupOf rd = some p) : 1 ≤ p.batch := by
  unfold setupOf at h
  dsimp only at h
  split at h
  · rename_i valid
    cases h
    simp only [Bool.and_eq_true, inRange, decide_eq_true_eq] at valid
    exact valid.1.1.2.1
  · cases h

/-- The report writer behind step 1 of START (R155, R160): outbox, indices and batch count. -/
theorem State.copySetup_report (s : State) (p : Setup) :
    (s.copySetup p).report.outbox = s.report.outbox ∧ (s.copySetup p).report.batch = p.batch := by
  unfold State.copySetup
  dsimp only
  split <;> exact ⟨rfl, rfl⟩

theorem State.startAccepted_acts {s : State} {p : Setup} (batch : 1 ≤ p.batch) (active : s.ctl.engine ≠ .halted)
    (first : OrderRing) (bus : StartBus) : State.Acts R s (s.startAccepted p first bus) := by
  obtain ⟨outbox, batch'⟩ := s.copySetup_report p
  have lines : ∀ l : LineId, (s.line l).Moves
      (s.lines.map fun ln => { ln with stored := { ln.stored with qualify := p.qualify } })[l] := by
    intro l
    rw [Fin.getElem_fin, Vector.getElem_map]
    exact .of_same rfl rfl rfl rfl rfl rfl rfl rfl
  have halts : ∀ (w : ReportWriter) (cause : ErrorCode), w.outbox = s.report.outbox → w.batch = p.batch →
      State.Acts R s (({ s.copySetup p with report := w } : State).halt cause) := fun w cause outbox batch' =>
    .single (.halts _ _ w _ cause outbox (fun _ => batch' ▸ batch) lines)
  unfold State.startAccepted
  dsimp only
  split
  · exact halts _ _ outbox batch'
  · split
    · exact halts _ _ outbox batch'
    · rename_i near
      unfold State.startRun
      dsimp only
      refine .trans ?_ (State.adoptOrderRings_acts p bus _ _ ?_)
      · refine .trans ?_ (State.queueUnsolicited_acts _ _)
        refine .trans ?_ (State.modCtl_acts id)
        have set : State.Acts R s { s with
            ctl := { s.ctl with setup := p }
            lines := s.lines.map fun ln => { ln with stored := { ln.stored with qualify := p.qualify } } } :=
          .trans (.single (.frame { s.ctl with setup := p } _ _ _ _ _ id)) (.single (.lines _ lines))
        refine set.trans (.single (.writer _ outbox (fun bounded running => ?_) fun signal => ?_))
        · obtain ⟨urgent, routine, -⟩ := bounded running
          exact ⟨urgent, routine, fun _ => Nat.le_of_not_lt fun far => near (decide_eq_true far)⟩
        · exact State.SignalKept.setup (w := { s.report with holdTime := p.holdTime, batch := p.batch }) signal batch
            rfl rfl rfl
      · have engine : ∀ (u : State) (k : UnsolicitedKind), (u.queueUnsolicited k).ctl = u.ctl := fun u k =>
          (u.queueUnsolicited_keeps k).ctl
        rw [engine]
        exact active

theorem State.takeStart_acts (s : State) (first : OrderRing) (bus : StartBus) : State.Acts R s (s.takeStart first bus) := by
  unfold State.takeStart
  split
  · rename_i ready
    unfold State.startInReady
    split
    · split
      · exact s.halt_acts _
      · split
        · exact s.setError_acts _
        · rename_i p valid
          exact State.startAccepted_acts (setupOf_batch valid) (by rw [ready]; exact EngineState.noConfusion) _ _
    · exact s.setError_acts _
  · exact .refl
  all_goals exact s.setError_acts _

theorem State.takeQuiesce_acts (s : State) : State.Acts R s s.takeQuiesce := by
  unfold State.takeQuiesce
  split
  · rename_i running
    refine .trans ?_ (State.judgeDrain_acts _)
    refine .trans (State.modCtl_acts fun halted => ?_) (State.endEach_acts _ _ fun st h => ?_)
    · rw [running] at halted; cases halted
    · cases st with
      | pending | retryWait => rfl
      | free | onLine | ended => cases h
  · exact .refl
  all_goals exact s.setError_acts _

theorem State.takeAbort_acts (s : State) : State.Acts R s s.takeAbort := by
  have aborts : s.ctl.engine ≠ .halted → State.Acts R s
      (((s.modCtl fun k => { k with engine := .aborting, error := .none }).endEach CtxState.isActive .aborted).judgeAbort) :=
    fun active => .trans (.trans (State.modCtl_acts fun halted => absurd halted active)
      (State.endEach_acts _ _ fun _ => id)) (State.judgeAbort_acts _)
  unfold State.takeAbort
  split
  · rename_i h; exact aborts (by rw [h]; exact EngineState.noConfusion)
  · rename_i h; exact aborts (by rw [h]; exact EngineState.noConfusion)
  · exact .refl
  all_goals exact s.setError_acts _

theorem State.takeOrderPost_acts (s : State) (r : OrderRing) (busError : Bool) :
    State.Acts R s (s.takeOrderPost r busError) := by
  unfold State.takeOrderPost
  split
  · rename_i h
    split
    · exact s.halt_acts _
    · unfold State.judgePost
      dsimp only
      split
      · exact s.faultRing_acts r
      · rename_i near
        exact State.setRing_acts fun _ => Ring.bounded_of_not_tooFar (Bool.eq_false_iff.mpr near)
  · exact .refl

theorem State.takeReportBit_acts (s : State) (busError : Bool) : State.Acts R s (s.takeReportBit busError) := by
  unfold State.takeReportBit
  split
  · split
    · exact s.halt_acts _
    · dsimp only
      split
      · rename_i accepted
        refine .single (.writer _ rfl (fun bounded running => ?_) id)
        obtain ⟨urgent, routine, report⟩ := bounded running
        exact ⟨urgent, routine, fun adopted => (of_decide_eq_true accepted).trans (report adopted)⟩
      · exact s.halt_acts _
  · exact .refl

theorem State.registerWrite_acts {s : State} {effect : State → State} (h : State.Acts R s (effect s)) :
    State.Acts R s (s.registerWrite effect) := by
  rcases s.registerWrite_cases effect with ⟨-, k⟩ | ⟨-, k⟩ <;> rw [k]
  exact h

/-! ## Resets -/

theorem State.endReset_acts (s : State) : State.Acts R s s.endReset := by
  unfold State.endReset
  split
  · exact .refl
  · refine .single (.lines _ fun l => ?_)
    rw [Fin.getElem_fin, Vector.getElem_map]
    exact .of_same rfl rfl rfl rfl rfl rfl rfl rfl

theorem State.powered_acts (s : State) (p : Power) : State.Acts R s { s with power := p } :=
  .single (.frame _ p _ _ _ _ id)

theorem State.loseContent_acts (loss : ∀ t r, R t r) (s : State) : State.Acts R s s.loseContent :=
  .trans (.single (.frame s.ctl s.power s.uptime s.uptimeMs (s.seed + 1) s.pending id)) (.single (.retained _ (loss _ _)))

theorem State.cutBy_acts (s : State) (cut : PowerCut) (loss : (∃ which, cut = .table which) → ∀ t r, R t r) :
    State.Acts R s (s.cutBy cut) := by
  rcases s.cutBy_cases cut with h | ⟨_, _, _, _, _, _, h⟩ | ⟨which, table, -, h⟩ <;> rw [h]
  · exact s.storeCells_acts _ _
  · exact .trans (.single (.frame s.ctl s.power s.uptime s.uptimeMs (s.seed + 1) s.pending id))
      (.single (.retained _ (loss ⟨which, table⟩ _ _)))

theorem State.powerCrosses_acts (s : State) (vdd : VddCrossing)
    (loss : (vdd.above = false ∧ s.power.vbatPresent = false) ∨ (∃ which, vdd.cut = .table which) → ∀ t r, R t r) :
    State.Acts R s (s.powerCrosses vdd) := by
  have begins : State.Acts R s (s.beginPowerReset vdd) :=
    .trans (.trans (s.cutBy_acts vdd.cut fun h => loss (.inr h)) (.single (.resets _))) (State.powered_acts _ _)
  rcases s.powerCrosses_cases vdd with ⟨falls, noBattery, h⟩ | ⟨-, h⟩ <;> rw [h]
  · exact begins.trans (State.loseContent_acts (loss (.inl ⟨falls, noBattery⟩)) _)
  · exact begins

theorem State.powerStable_acts (s : State) : State.Acts R s s.powerStable := by
  unfold State.powerStable
  split
  · exact (State.powered_acts _ _).trans (State.endReset_acts _)
  · exact .refl

theorem State.resetnRises_acts (s : State) : State.Acts R s s.resetnRises := by
  unfold State.resetnRises
  split
  · exact (State.powered_acts _ _).trans (State.endReset_acts _)
  · exact .refl

theorem State.batteryLost_acts (s : State) (loss : s.power.vddAbove = false → ∀ t r, R t r) :
    State.Acts R s s.batteryLost := by
  unfold State.batteryLost
  dsimp only
  split
  · exact State.powered_acts _ _
  · rename_i h
    exact (State.powered_acts _ _).trans (State.loseContent_acts (loss (Bool.eq_false_iff.mpr h)) _)

include moves

theorem State.checkDone_acts (s : State) : State.Acts R s s.checkDone := by
  unfold State.checkDone
  split
  · rename_i h
    have checked := s.retained.checked_moves
    generalize s.retained.checked = x at checked ⊢
    obtain ⟨t, status⟩ := x
    refine .trans (.single (.frame { s.ctl with engine := .ready, status := status }
      { s.power with roseSinceReady := false } s.uptime s.uptimeMs s.seed s.pending fun halted => ?_))
      (.single (.retained t (moves checked)))
    rw [h.1] at halted; cases halted
  · exact .refl

theorem State.calendarAdvances_acts (s : State) : State.Acts R s s.calendarAdvances := by
  rcases s.calendarAdvances_cases with ⟨-, h⟩ | ⟨-, h⟩ <;> rw [h]
  exact .single (.retained _ (moves (Retained.moveCalendar_moves _ _)))

end

end Sys2Proof.Machine
end

section
/-! PROOF. The takes of request records, the part left to itself, and so every step, cut into acts. -/

namespace Sys2Proof.Machine

/-! ## What intake finds when it takes a record -/

theorem State.hasFree_congr {s t : State} (ctxs : t.ctxs = s.ctxs) (outbox : t.report.outbox = s.report.outbox)
    (need : Need) : t.hasFree need = s.hasFree need := by
  cases need with
  | context =>
    unfold State.hasFree State.freeCtx
    simp only [State.ctx_congr ctxs]
  | doneSlot => simp only [State.hasFree, State.doneSlotFree, outbox]

@[simp] theorem State.considerRing_hasFree (s : State) (r : OrderRing) (need n : Need) :
    (s.considerRing r need).hasFree n = s.hasFree n :=
  State.hasFree_congr (by cases r <;> rfl) (by cases r <;> rfl) n

theorem State.considerHeads_ring_same (s : State) (r : OrderRing) (need : Need) :
    (s.considerHeads r need).ring r = (s.ring r).considered need (s.hasFree need) := by
  unfold State.considerHeads State.considerRing
  rw [State.modRing_ring_other _ _ _ _ (otherRing_ne r).symm, State.modRing_ring_same]

/-- A head that stays takeable has its resource free (R28, R29). -/
theorem Ring.hasRecord_considered {x : Ring} {need : Need} {isFree : Bool}
    (h : (x.considered need isFree).hasRecord = true) : x.hasRecord = true ∧ isFree = true := by
  rcases x.considered_cases need isFree with k | ⟨-, -, k⟩ | ⟨-, -, -, k⟩ <;> rw [k] at h
  · refine ⟨h, Bool.not_eq_false _ ▸ fun notFree => ?_⟩
    simp only [Ring.hasRecord, Bool.and_eq_true, decide_eq_true_eq] at h
    simp [Ring.considered, h.1, h.2, notFree] at k
    rw [← k] at h
    exact absurd h.1 RingState.noConfusion
  all_goals simp [Ring.hasRecord] at h

/-- The record that intake chooses has its resource free (R31). -/
theorem State.considerHeads_choose {s : State} {r : OrderRing} {need : Need} {n : Nat}
    (h : (s.considerHeads r need).choose = some (r, n)) :
    ((s.considerHeads r need).ring r).hasRecord = true ∧ s.hasFree need = true := by
  have record := State.choose_some h
  refine ⟨record, ?_⟩
  rw [State.considerHeads_ring_same] at record
  exact (Ring.hasRecord_considered record).2

theorem State.considerHeads_fields (s : State) (r : OrderRing) (need : Need) :
    (s.considerHeads r need).ctxs = s.ctxs ∧ (s.considerHeads r need).report = s.report
      ∧ (s.considerHeads r need).lines = s.lines ∧ (s.considerHeads r need).retained = s.retained
      ∧ (s.considerHeads r need).ctl = s.ctl := by
  cases r <;> exact ⟨rfl, rfl, rfl, rfl, rfl⟩

/-! ## Context lookups (R1, R15) -/

theorem State.freeCtx_some {s : State} {c : CtxId} (h : s.freeCtx = some c) : (s.ctx c).state = .free := by
  unfold State.freeCtx at h
  exact of_decide_eq_true (List.find?_some (p := fun c => decide ((s.ctx c).state = .free)) h)

theorem State.activeWithTag_some {s : State} {tag : Half} {c : CtxId} (h : s.activeWithTag tag = some c) :
    (s.ctx c).state.isActive = true ∧ (s.ctx c).tag = tag := by
  unfold State.activeWithTag at h
  have found := List.find?_some (p := fun c => (s.ctx c).state.isActive && decide ((s.ctx c).tag = tag)) h
  simpa using found

theorem mem_allContexts (c : CtxId) : c ∈ allContexts := List.mem_finRange c

theorem State.activeWithTag_none {s : State} {tag : Half} : s.activeWithTag tag = none ↔ s.TagUnused tag := by
  unfold State.activeWithTag State.TagUnused
  rw [List.find?_eq_none]
  constructor
  · intro h d active same
    exact h d (mem_allContexts d) (by simp [active, same])
  · intro h d _ both
    simp only [Bool.and_eq_true, decide_eq_true_eq] at both
    exact h d both.1 both.2

/-- What the checks of a PLACE_CALL find: a snapshot that intake can take, and the tag unused when they all pass. -/
theorem State.judgePlaceCall_snapshot (s : State) (rec : PlaceCallRec) : s.Snapshot (s.judgePlaceCall rec).snapshot := by
  unfold State.judgePlaceCall
  dsimp only
  split
  · split
    · exact .inl rfl
    · rename_i p named
      have taken : s.Snapshot p := by
        unfold State.namedPolicy at named
        split at named
        · cases named; exact .inl rfl
        · split at named
          · rename_i i _; exact .inr ⟨i, named⟩
          · cases named
      split
      · exact taken
      · unfold State.judgeNumber
        split <;> exact taken
  · exact .inl rfl

theorem State.judgePlaceCall_passed {s : State} {rec : PlaceCallRec} (h : (s.judgePlaceCall rec).failure = none) :
    s.TagUnused rec.tag := by
  unfold State.judgePlaceCall at h
  dsimp only at h
  split at h
  · split at h
    · cases h
    · split at h
      · cases h
      · rename_i unused; exact State.activeWithTag_none.mp (Option.not_isSome_iff_eq_none.mp unused)
  · cases h

theorem State.judgeAccept_ok {s : State} {rec : AcceptRec} {l : LineId} (h : s.judgeAccept rec = .ok l) :
    s.TagUnused rec.tag ∧ (s.line l).state = .ringing := by
  unfold State.judgeAccept at h
  split at h
  · cases h
  · split at h
    · cases h
    · rename_i unused
      split at h
      · rename_i ringing
        cases h
        exact ⟨State.activeWithTag_none.mp (Option.not_isSome_iff_eq_none.mp unused), ringing⟩
      · cases h

/-- A SET_POLICY entry is absent or in its range (R38). -/
theorem SetPolicyRec.entry_inRange {rec : SetPolicyRec} {i : Fin 8} {p : Policy} (h : rec.entry = some (i, some p)) :
    p.InRange := by
  unfold SetPolicyRec.entry at h
  split at h
  · simp at h
  · dsimp only at h
    split at h
    · rename_i valid
      simp only [Option.some.injEq, Prod.mk.injEq] at h
      obtain ⟨-, rfl⟩ := h
      simp only [Bool.and_eq_true, inRange, decide_eq_true_eq, List.all_eq_true] at valid
      obtain ⟨⟨⟨limit, count⟩, intervals⟩, -⟩ := valid
      refine ⟨limit, ?_, intervals⟩
      simp only [List.length_map, List.length_take, Vector.length_toList]
      omega
    · cases h
  · cases h

section
variable {R : Retained → Retained → Prop} (moves : ∀ {t r : Retained}, t.Moves r → R t r)

/-- A take (R31, R32), for a meaning that keeps the control block and intake. -/
theorem State.takeFrom_acts {s : State} {r : OrderRing} {bus : TakeBus} {need : Need} {cells : List (Nat × Byte)}
    {act : State → State} (keeps : ∀ u : State, u.Keeps (act u)) (acts : ∀ u : State, u.hasFree need = true → State.Acts R u (act u)) :
    State.Acts R s (s.takeFrom r bus need cells act) := by
  rcases s.takeFrom_cases r bus need cells act with ⟨-, h⟩ | ⟨-, -, h⟩ | ⟨-, -, -, h⟩ | ⟨-, -, -, h⟩
  · rw [h]
  · rw [h]; exact s.considerRing_acts r need
  · rw [h]; exact (s.storeCells_acts _ _).trans (State.halt_acts _ _)
  · have considered : State.Acts R s ((s.storeCells (s.ring r).headAddr cells).considerHeads r need) :=
      (s.storeCells_acts _ _).trans (State.considerHeads_acts _ _ _)
    rcases h with ⟨streak, chosen, h⟩ | ⟨-, h⟩ <;> rw [h]
    · obtain ⟨record, free⟩ := State.considerHeads_choose chosen
      refine (considered.trans (State.setStreak_acts _ streak)).trans ?_
      generalize ht : ((s.storeCells (s.ring r).headAddr cells).considerHeads r need).setStreak streak = t
      have resource : t.hasFree need = true := by
        rw [← ht, ← free]
        exact State.hasFree_congr (State.considerHeads_fields _ _ _).1
          (congrArg _ (State.considerHeads_fields _ _ _).2.1) need
      have atHead : ((act t).ring r).hasRecord = true := by
        rw [State.ring_congr (keeps t).intake, ← ht, State.setStreak_ring]
        exact record
      refine (acts t resource).trans ?_
      generalize act t = u at atHead
      unfold State.finishTake
      dsimp only
      split
      · have halts := State.Act.halts (R := R) (s := u) u.ctl (u.modRing r fun x => { x with consumer := x.consumer + 1 }).intake
          u.report u.lines .memoryFault rfl id fun _ => .refl _
        cases r <;> exact .single halts
      · have stored : State.Acts R u ((u.modRing r fun x => { x with consumer := x.consumer + 1 }).writeConsumer
            ((u.modRing r fun x => { x with consumer := x.consumer + 1 }).ring r).header
            ((u.modRing r fun x => { x with consumer := x.consumer + 1 }).ring r).consumer) :=
          .trans (State.modRing_acts fun h => h.take atHead) (State.storeCells_acts _ _ _)
        split
        · rename_i last
          refine stored.trans (State.modRing_acts fun _ => ?_)
          intro _
          unfold State.writeConsumer
          rw [State.storeCells_ring, last]
          simp
        · exact stored
    · exact considered

include moves

theorem State.actPlaceCall_acts (s : State) (r : OrderRing) (rec : PlaceCallRec) :
    State.Acts R s (s.actPlaceCall r rec) := by
  unfold State.actPlaceCall
  split
  · exact .refl
  · rename_i c found
    dsimp only
    split
    · exact .single (.refuses c _ _ (State.freeCtx_some found) rfl rfl (s.judgePlaceCall_snapshot rec))
    · rename_i passed
      unfold State.joinWaiting
      refine .trans ?_ (State.pass_acts moves _)
      have same : ((s.modCtx c fun _ => placeCallContext rec r (s.judgePlaceCall rec)).modCtx c fun x =>
          { x with state := .pending })
          = s.modCtx c fun _ => { placeCallContext rec r (s.judgePlaceCall rec) with state := .pending } := by
        simp [State.modCtx]
      rw [same]
      exact .single (.place c { placeCallContext rec r (s.judgePlaceCall rec) with state := .pending }
        (State.freeCtx_some found) rfl rfl rfl (s.judgePlaceCall_snapshot rec) (State.judgePlaceCall_passed passed))

theorem State.actAccept_acts (s : State) (r : OrderRing) (rec : AcceptRec) : State.Acts R s (s.actAccept r rec) := by
  unfold State.actAccept
  split
  · exact .refl
  · rename_i c found
    dsimp only
    split
    · exact .single (.refuses c _ _ (State.freeCtx_some found) rfl rfl (.inl rfl))
    · rename_i l judged
      obtain ⟨unused, ringing⟩ := State.judgeAccept_ok judged
      have answered : State.Acts R s ((((s.modCtx c fun _ => acceptContext rec r).modCtx c fun x =>
          { x with state := .onLine, currentLine := some l, lastLine := some l })).modLine l fun ln => ln.toAnswering c) := by
        have same : ((s.modCtx c fun _ => acceptContext rec r).modCtx c fun x =>
            { x with state := .onLine, currentLine := some l, lastLine := some l })
            = s.modCtx c fun _ => { acceptContext rec r with
                state := .onLine, currentLine := some l, lastLine := some l } := by
          simp [State.modCtx]
        rw [same]
        exact .single (.accepts c l { acceptContext rec r with state := .onLine, currentLine := some l, lastLine := some l }
          (State.freeCtx_some found) rfl rfl rfl rfl rfl unused ringing)
      unfold State.answerLine
      dsimp only
      split
      · exact answered.trans (State.connectedInEntry_acts (by simp [Line.toAnswering]))
      · exact answered.trans (State.faultAndSweep_acts moves (by simp [Line.toAnswering, LineState.offHook]))
      all_goals exact answered

theorem State.actCancel_acts {s : State} (room : s.doneSlotFree = true) (rec : TargetRec) :
    State.Acts R s (s.actCancel rec) := by
  unfold State.actCancel
  dsimp only
  split
  · rename_i c found
    have ended : State.Acts R s ((s.queueDone rec.tag 0x03 .done none (signalNowFlag rec.flags)).endContext c .cancelled) :=
      (State.queueDone_acts room _ _ _ _ _).trans (.single (.ends c _ (.inr (State.activeWithTag_some found).1)))
    split
    · exact ended.trans (State.pass_acts moves _)
    · exact ended
  · exact State.queueDone_acts room _ _ _ _ _

omit moves in
theorem State.actRelease_acts {s : State} (room : s.doneSlotFree = true) (rec : TargetRec) :
    State.Acts R s (s.actRelease rec) := by
  unfold State.actRelease
  dsimp only
  split
  · rename_i c found
    split
    · exact (State.queueDone_acts room _ _ _ _ _).trans (.single (.ends c _ (.inr (State.activeWithTag_some found).1)))
    · exact State.queueDone_acts room _ _ _ _ _
  · exact State.queueDone_acts room _ _ _ _ _

theorem State.actSetLine_acts {s : State} (room : s.doneSlotFree = true) (rec : SetLineRec) :
    State.Acts R s (s.actSetLine rec) := by
  unfold State.actSetLine
  split
  · exact State.queueDone_acts room _ _ _ _ _
  · rename_i l enable params _
    have stored : State.Acts R s (s.modLine l fun ln => { ln with stored := params }) :=
      State.modLine_acts (.of_same rfl rfl rfl rfl rfl rfl rfl rfl)
    dsimp only
    split
    · refine .trans ?_ (State.queueDone_acts ?_ _ _ _ _ _)
      exacts [stored, room]
    · rename_i effect
      have idle : (s.line l).state = .idle := by
        cases h : (s.line l).state <;> cases enable <;> rw [h] at effect <;> cases effect
      refine .trans ?_ (State.pass_acts moves _)
      refine .trans ?_ (.single .sweep)
      refine .trans ?_ (State.queueDone_acts ?_ _ _ _ _ _)
      · refine stored.trans (.single (.leavesFree l _ ?_ rfl LineState.noConfusion rfl fun h => ?_))
        · simp [idle, LineState.offHook]
        · exact h.of_resting (by simp [idle]) LineState.noConfusion rfl rfl rfl rfl rfl rfl
      · exact room
    · rename_i effect
      have lost : (s.line l).state = .disabled ∨ (s.line l).state = .fault := by
        cases h : (s.line l).state <;> cases enable <;> rw [h] at effect <;> cases effect
        · exact .inl rfl
        · exact .inr rfl
      refine .trans ?_ (State.pass_acts moves _)
      refine .trans ?_ (State.queueDone_acts ?_ _ _ _ _ _)
      · refine stored.trans (.single (.joinsFree l _ ?_ ?_ rfl rfl fun h => ?_))
        · rcases lost with h | h <;> simp [h, LineState.offHook]
        · rcases lost with h | h <;> simp [h]
        · exact h.of_resting (by rcases lost with h | h <;> simp [h]) LineState.noConfusion rfl rfl rfl rfl rfl rfl
      · exact room
    · refine .trans ?_ (State.queueDone_acts ?_ _ _ _ _ _)
      · exact stored.trans (State.modLine_acts (.of_same rfl rfl rfl rfl rfl rfl rfl rfl))
      · exact room

omit moves in
/-- A configuration request whose change `R` permits (R36 to R41). -/
theorem State.answerConfig_acts {s : State} (room : s.doneSlotFree = true) (tag : Half) (kind : Byte)
    {change : Option (Retained → Retained)} (permitted : ∀ f ∈ change, R s.retained (f s.retained)) :
    State.Acts R s (s.answerConfig tag kind change) := by
  unfold State.answerConfig
  split
  · exact State.queueDone_acts room _ _ _ _ _
  · rename_i f
    refine .trans (.single (.retained (f s.retained) (permitted f rfl))) (State.queueDone_acts ?_ _ _ _ _ _)
    exact room

omit moves in
theorem loadPrefixChange_moves {rec : LoadPrefixRec} {f : Retained → Retained} (h : f ∈ loadPrefixChange rec)
    (t : Retained) : t.Moves (f t) := by
  simp only [loadPrefixChange, Option.mem_def, Option.map_eq_some_iff] at h
  obtain ⟨⟨i, e⟩, -, rfl⟩ := h
  exact ⟨t.setPrefixes_tidy _, .of_accounts rfl⟩

omit moves in
theorem loadBandChange_moves {rec : LoadBandRec} {f : Retained → Retained} (h : f ∈ loadBandChange rec)
    (t : Retained) : t.Moves (f t) := by
  simp only [loadBandChange, Option.mem_def, Option.map_eq_some_iff] at h
  obtain ⟨⟨c, i, e⟩, -, rfl⟩ := h
  exact ⟨t.setBands_tidy _, .of_accounts rfl⟩

omit moves in
theorem setPolicyChange_moves {rec : SetPolicyRec} {f : Retained → Retained} (h : f ∈ setPolicyChange rec)
    (t : Retained) : t.Moves (f t) := by
  simp only [setPolicyChange, Option.mem_def, Option.map_eq_some_iff] at h
  obtain ⟨⟨i, e⟩, entry, rfl⟩ := h
  refine ⟨t.setPolicies_tidy _ fun inRange j p present => ?_, .of_accounts rfl⟩
  simp only [Fin.getElem_fin, Vector.getElem_set, Option.mem_def] at present
  split at present
  · rw [present] at entry; exact SetPolicyRec.entry_inRange entry
  · exact inRange j p present

omit moves in
theorem setClockChange_moves {rec : SetClockRec} {f : Retained → Retained} (h : f ∈ setClockChange rec)
    (t : Retained) : t.Moves (f t) := by
  unfold setClockChange at h
  split at h
  · cases h; exact ⟨t.setCalendar_tidy _, .of_accounts rfl⟩
  · cases h

omit moves in
theorem State.actAccount_acts {s : State} (room : s.doneSlotFree = true) (tag : Half) {a : AccountId}
    {f : Account → Account} (permitted : R s.retained (s.retained.modAccount a f)) :
    State.Acts R s (s.actAccount tag a f) := by
  unfold State.actAccount
  refine .trans (.single (.retained _ permitted)) (State.queueDone_acts ?_ _ _ _ _ _)
  exact room

end

/-! ## Every command -/

/-- The command takes the retained content away, or part of it (R41, R163). -/
def LosesContent (s : State) : Instr → Prop
  | .vbatLoss => s.power.vddAbove = false
  | .powerOnReset vdd => (vdd.above = false ∧ s.power.vbatPresent = false) ∨ ∃ which, vdd.cut = .table which
  | _ => False

/-- The command is SET_LIMIT (R138). -/
def SetsLimit : Instr → Prop
  | .accountSetLimit .. => True
  | _ => False

section
variable {R : Retained → Retained → Prop} (moves : ∀ {t r : Retained}, t.Moves r → R t r)
include moves

/-- Every command is a run of acts. -/
theorem exec_acts (i : Instr) {s t : State} (loss : LosesContent s i → ∀ t r, R t r)
    (limit : SetsLimit i → ∀ t r : Retained, t.Tidy r → R t r) (h : exec i s = .next t) : State.Acts R s t := by
  have stored : ∀ stores : HostStores, State.Acts R s (s.hostStores stores) := s.hostStores_acts
  have sensed : ∀ (l : LineId) (f : Line → Line), (s.line l).Moves (f (s.line l)) → State.Acts R s (s.modLine l f) :=
    fun l f => State.modLine_acts
  cases i <;> obtain rfl := Host.Outcome.next.inj h
  case start stores first bus => exact (stored stores).trans (State.registerWrite_acts (State.takeStart_acts _ _ _))
  case quiesce => exact State.registerWrite_acts s.takeQuiesce_acts
  case abort => exact State.registerWrite_acts s.takeAbort_acts
  case reset => exact State.registerWrite_acts (.trans (.single (.resets _)) (State.endReset_acts _))
  case badCommand =>
    refine State.registerWrite_acts ?_
    unfold State.takeBadCommand
    split
    · exact .refl
    · exact s.setError_acts _
  case orderRingPost stores r e => exact (stored stores).trans (State.registerWrite_acts (State.takeOrderPost_acts _ _ _))
  case reportPostBit stores e => exact (stored stores).trans (State.registerWrite_acts (State.takeReportBit_acts _ _))
  case signalAcknowledge =>
    have same : ∀ (w : ReportWriter) (b : Bool), (w.acknowledge b).outbox = w.outbox ∧ (w.acknowledge b).adopted = w.adopted
        ∧ (w.acknowledge b).producer = w.producer ∧ (w.acknowledge b).cachedConsumer = w.cachedConsumer
        ∧ (w.acknowledge b).size = w.size := by
      intro w b
      unfold ReportWriter.acknowledge
      dsimp only
      split
      · split <;> exact ⟨rfl, rfl, rfl, rfl, rfl⟩
      · exact ⟨rfl, rfl, rfl, rfl, rfl⟩
    obtain ⟨outbox, adopted, producer, cached, size⟩ := same s.report (decide (s.ctl.engine = .halted))
    exact State.registerWrite_acts (State.writer_acts outbox adopted producer cached size State.SignalKept.acknowledge)
  case setupAddrWrite => exact State.registerWrite_acts (State.modCtl_acts id)
  case readOnlyRegisterWrite => exact .refl
  case powerOnReset vdd => exact s.powerCrosses_acts vdd loss
  case powerOnResetEnd => exact s.powerStable_acts
  case resetnAssert => exact .trans (.single (.resets _)) (State.powered_acts _ _)
  case resetnRelease => exact s.resetnRises_acts
  case retainedCheckDone => exact s.checkDone_acts moves
  case placeCall r bus rec =>
    exact State.takeFrom_acts (fun u => u.actPlaceCall_keeps r rec) fun u _ => u.actPlaceCall_acts moves r rec
  case accept r bus rec =>
    exact State.takeFrom_acts (fun u => u.actAccept_keeps r rec) fun u _ => u.actAccept_acts moves r rec
  case cancel r bus rec =>
    exact State.takeFrom_acts (fun u => u.actCancel_keeps rec) fun u room => State.actCancel_acts moves room rec
  case release r bus rec =>
    exact State.takeFrom_acts (fun u => u.actRelease_keeps rec) fun u room => State.actRelease_acts room rec
  case setLine r bus rec =>
    exact State.takeFrom_acts (fun u => u.actSetLine_keeps rec) fun u room => State.actSetLine_acts moves room rec
  case loadPrefix r bus rec =>
    exact State.takeFrom_acts (fun u => u.answerConfig_keeps _ _ _) fun u room =>
      State.answerConfig_acts room _ _ fun f hf => moves (loadPrefixChange_moves hf _)
  case loadBand r bus rec =>
    exact State.takeFrom_acts (fun u => u.answerConfig_keeps _ _ _) fun u room =>
      State.answerConfig_acts room _ _ fun f hf => moves (loadBandChange_moves hf _)
  case setPolicy r bus rec =>
    exact State.takeFrom_acts (fun u => u.answerConfig_keeps _ _ _) fun u room =>
      State.answerConfig_acts room _ _ fun f hf => moves (setPolicyChange_moves hf _)
  case setClock r bus rec =>
    exact State.takeFrom_acts (fun u => u.answerConfig_keeps _ _ _) fun u room =>
      State.answerConfig_acts room _ _ fun f hf => moves (setClockChange_moves hf _)
  case accountSetLimit r bus tag a limited amount =>
    exact State.takeFrom_acts (fun u => u.actAccount_keeps _ _ _) fun u room =>
      State.actAccount_acts room tag (limit trivial _ _ (Retained.setAccounts_tidy _ _))
  case accountClearTotal r bus tag a =>
    exact State.takeFrom_acts (fun u => u.actAccount_keeps _ _ _) fun u room =>
      State.actAccount_acts room tag (moves (Retained.modAccount_moves _ _ _ fun limited => ⟨limited, rfl, Nat.zero_le _⟩))
  case accountSuspend r bus tag a =>
    exact State.takeFrom_acts (fun u => u.actAccount_keeps _ _ _) fun u room =>
      State.actAccount_acts room tag
        (moves (Retained.modAccount_moves _ _ _ fun limited => ⟨limited, rfl, le_max_left _ _⟩))
  case accountResume r bus tag a =>
    exact State.takeFrom_acts (fun u => u.actAccount_keeps _ _ _) fun u room =>
      State.actAccount_acts room tag
        (moves (Retained.modAccount_moves _ _ _ fun limited => ⟨limited, rfl, le_max_left _ _⟩))
  case accountRead r bus tag a =>
    exact State.takeFrom_acts (fun u => u.queueDone_keeps _ _ _ _ _) fun u room => State.queueDone_acts room _ _ _ _ _
  case accountInvalidOperation r bus rec =>
    exact State.takeFrom_acts (fun u => u.queueDone_keeps _ _ _ _ _) fun u room => State.queueDone_acts room _ _ _ _ _
  case unknownRequestKind r bus kind tag =>
    exact State.takeFrom_acts (fun u => u.queueDone_keeps _ _ _ _ _) fun u room => State.queueDone_acts room _ _ _ _ _
  case loopSenseChange l a b => exact sensed l _ (.of_same rfl rfl rfl rfl rfl rfl rfl rfl)
  case toneEnergyChange l present => exact sensed l _ (.of_same rfl rfl rfl rfl rfl rfl rfl rfl)
  case ringDetectChange l active => exact sensed l _ (.of_same rfl rfl rfl rfl rfl rfl rfl rfl)
  case loopPatternQualified l => exact State.atLine_acts (s.qualifyPattern_acts moves l)
  case toneEnergyQualified l => exact State.atLine_acts (s.qualifyTone_acts l)
  case qualifiedRing l => exact State.atLine_acts (s.qualifyRing_acts moves l)
  case ringLevelQuiet l => exact State.atLine_acts (s.qualifyQuiet_acts l)
  case loopTimerExpiry l => exact State.atLine_acts (s.endOnLine_acts_if l _ _)
  case dialToneTimerExpiry l => exact State.atLine_acts (s.endOnLine_acts_if l _ _)
  case digitTimerExpiry l => exact State.atLine_acts (s.digitTimerRunsOut_acts moves l)
  case pauseTimerExpiry l => exact State.atLine_acts (s.pauseTimerOut_acts moves l)
  case answerTimerExpiry l => exact State.atLine_acts (s.endOnLine_acts_if l _ _)
  case maxDurationTimerExpiry l => exact State.atLine_acts (s.endOnLine_acts_if l _ _)
  case farClearTimerExpiry l => exact State.atLine_acts (s.farClearOut_acts l)
  case clearGuardTimerExpiry l => exact State.atLine_acts (s.clearGuardOut_acts moves l)
  case ringGapTimerExpiry l => exact State.atLine_acts (s.ringGapOut_acts moves l)
  case dialToneMark l => exact State.atLine_acts (sensed l _ (Line.dialMark_toneOnly _).moves)
  case offPeriodOverrun l => exact State.atLine_acts (sensed l _ (Line.offOverrun_toneOnly _).moves)
  case classReport l => exact State.atLine_acts (s.takeClassReport_acts moves l)
  case unitStart l => exact State.atLine_acts (s.unitStarts_acts moves l)
  case holdTimerExpiry =>
    have same : ∀ w : ReportWriter, w.holdOut.outbox = w.outbox ∧ w.holdOut.adopted = w.adopted
        ∧ w.holdOut.producer = w.producer ∧ w.holdOut.cachedConsumer = w.cachedConsumer ∧ w.holdOut.size = w.size := by
      intro w
      unfold ReportWriter.holdOut
      split
      · split <;> exact ⟨rfl, rfl, rfl, rfl, rfl⟩
      all_goals exact ⟨rfl, rfl, rfl, rfl, rfl⟩
    obtain ⟨outbox, adopted, producer, cached, size⟩ := same s.report
    exact State.writer_acts outbox adopted producer cached size State.SignalKept.holdOut
  case uptimeTick =>
    split
    · exact .refl
    · exact s.uptimeRises_acts moves
  case calendarAdvance => exact s.calendarAdvances_acts moves
  case reportPost bus => exact s.takePost_acts bus
  case vbatLoss => exact s.batteryLost_acts loss

/-! ## Every step -/

theorem State.passMs_acts (s : State) : State.Acts R s s.passMs := by
  have ticked : State.Acts R s { s with lines := s.lines.map Line.tick } := by
    refine .single (.lines _ fun l => ?_)
    rw [Fin.getElem_fin, Vector.getElem_map]
    have timer : ∀ n : Option Nat, (tickTimer n).isSome = n.isSome := fun n => by cases n <;> rfl
    have enabled : (s.line l).classifier.tick.enabled = (s.line l).classifier.enabled := by
      unfold Classifier.tick; split <;> rfl
    exact .of_same rfl rfl rfl (timer _) (timer _) (timer _) rfl enabled
  have counted : ∀ (ls : List LineId) (u : State), State.Acts R u (ls.foldl State.countConnected u) := by
    intro ls
    induction ls with
    | nil => exact fun u => .refl
    | cons l ls ih =>
      intro u
      refine .trans ?_ (ih _)
      unfold State.countConnected
      split
      · split
        · exact State.notes_acts ⟨rfl, rfl, rfl, rfl, rfl, rfl, rfl⟩
        · exact .refl
      · exact .refl
  have lines : State.Acts R s s.tickLines := by
    unfold State.tickLines
    split
    · exact ticked.trans (counted _ _)
    · exact .refl
  refine lines.trans (c := s.tickLines.tickClocks) ?_
  generalize s.tickLines = u
  have framed : State.Acts R u { u with
      uptimeMs := if u.inReset then 0 else u.uptimeMs + 1
      power := { u.power with stableLeft := tickTimer u.power.stableLeft } } := .single (.frame _ _ _ _ _ _ id)
  have timed : State.Acts R u { u with
      uptimeMs := if u.inReset then 0 else u.uptimeMs + 1
      report := { u.report with holdTimer := u.report.holdTimer.tick }
      power := { u.power with stableLeft := tickTimer u.power.stableLeft } } :=
    framed.trans (State.writer_acts rfl rfl rfl rfl rfl State.SignalKept.tick)
  have counts : u.retained.Moves (if u.calendarPowered then
      { u.retained with calendar := { u.retained.calendar with ms := u.retained.calendar.ms + 1 } } else u.retained) := by
    split
    · exact Retained.countMs_moves _ _
    · exact .refl _
  exact timed.trans (.single (.retained _ (moves counts)))

end

end Sys2Proof.Machine
end

section
/-! PROOF. A step is the front command, or, on an empty queue, a happening that is due or a millisecond (log 1): in each case a
run of acts. -/

namespace Sys2Proof.Machine

/-! ## What is due takes no retained content away -/

/-- A command that no loss of a supply and no cut write brings about. -/
def Harmless (i : Instr) : Prop := ∀ u : State, ¬ LosesContent u i

theorem harmless_of_mem_dueIf {due : Bool} {i j : Instr} (harmless : Harmless j) (h : i ∈ dueIf due j) : Harmless i := by
  unfold dueIf at h
  split at h
  · rw [List.mem_singleton.mp h]; exact harmless
  · cases h

theorem decodeRequest_harmless (r : OrderRing) (bus : TakeBus) (rd : Nat → Byte) : Harmless (decodeRequest r bus rd) := by
  unfold decodeRequest
  dsimp only
  iterate 8 refine iteInduction (fun _ _ => id) fun _ => ?_
  refine iteInduction (fun _ => ?_) fun _ => iteInduction (fun _ _ => id) fun _ _ => id
  unfold decodeAccount
  split
  · dsimp only
    refine iteInduction (fun _ => iteInduction (fun _ _ => id) fun _ => iteInduction (fun _ _ => id) fun _ _ => id) fun _ => ?_
    iterate 4 refine iteInduction (fun _ _ => id) fun _ => ?_
    exact fun _ => id
  · exact fun _ => id

theorem Line.due_harmless {ln : Line} {l : LineId} {entry : Option MeterEntry} {i : Instr} (h : i ∈ ln.due l entry) :
    Harmless i := by
  unfold Line.due at h
  iterate 16
    rcases List.mem_append.mp h with h' | h'
    rotate_left
    · exact harmless_of_mem_dueIf (fun _ => id) h'
    clear h
    rename' h' => h
  exact harmless_of_mem_dueIf (fun _ => id) h

theorem State.dueTake_harmless {s : State} {i : Instr} (h : i ∈ s.dueTake) : Harmless i := by
  unfold State.dueTake at h
  split at h
  · split at h
    · rw [List.mem_singleton.mp h]; exact decodeRequest_harmless _ _ _
    · cases h
  · cases h

theorem State.dueNow_harmless {s : State} {i : Instr} (h : i ∈ s.dueNow) : Harmless i := by
  unfold State.dueNow at h
  rcases List.mem_append.mp h with h | h
  · rcases List.mem_append.mp h with h | h <;> exact harmless_of_mem_dueIf (fun _ => id) h
  · split at h
    · cases h
    · simp only [List.mem_append] at h
      rcases h with ((((h | h) | h) | h) | h) | h
      · exact harmless_of_mem_dueIf (fun _ => id) h
      · exact harmless_of_mem_dueIf (fun _ => id) h
      · exact harmless_of_mem_dueIf (fun _ => id) h
      · exact harmless_of_mem_dueIf (fun _ => id) h
      · exact State.dueTake_harmless h
      · split at h
        · obtain ⟨l, -, due⟩ := List.mem_flatMap.mp h; exact Line.due_harmless due
        · cases h

/-! ## The part left to itself -/

/-- With nothing due one millisecond passes (log 1). -/
theorem State.idle_of_nothing_due {s : State} (h : s.intakeLooks.dueNow = []) : s.idle = .next s.intakeLooks.passMs := by
  unfold State.idle
  dsimp only
  rw [h]

/-- A single happening that is due is taken. -/
theorem State.idle_of_one_due {s : State} {i : Instr} (h : s.intakeLooks.dueNow = [i]) : s.idle = exec i s.intakeLooks := by
  unfold State.idle
  dsimp only
  rw [h]

theorem State.intakeLooks_seed (s : State) : s.intakeLooks.seed = s.seed := by
  unfold State.intakeLooks
  split <;> rfl

/-- Of several happenings that are due a free value picks one (log 9). -/
theorem State.idle_of_several_due {s : State} (h : 2 ≤ s.intakeLooks.dueNow.length) :
    ∃ i ∈ s.intakeLooks.dueNow, s.idle = exec i { s.intakeLooks with seed := s.seed + 1 } := by
  unfold State.idle
  dsimp only
  cases due : s.intakeLooks.dueNow with
  | nil => rw [due] at h; simp at h
  | cons i rest =>
    cases rest with
    | nil => rw [due] at h; simp at h
    | cons j rest =>
      dsimp only
      refine ⟨_, ?_, by rw [s.intakeLooks_seed]⟩
      rw [List.getD_eq_getElem _ _ (Nat.mod_lt _ (by simp))]
      exact List.getElem_mem _

theorem step_of_pending {s : State} {i : Instr} {rest : List Instr} (h : s.pending = i :: rest) :
    step s = exec i { s with pending := rest } := by
  unfold step
  rw [h]

theorem step_of_idle {s : State} (h : s.pending = []) : step s = s.idle := by
  unfold step
  rw [h]

theorem State.intakeLooks_acts {R : Retained → Retained → Prop} (s : State) : State.Acts R s s.intakeLooks := by
  unfold State.intakeLooks
  split
  · exact s.considerHeads_acts _ _
  · exact .refl

theorem State.intakeLooks_retained (s : State) : s.intakeLooks.retained = s.retained := by
  unfold State.intakeLooks
  split <;> rfl

/-- Every step is a command run on a state that differs in the model's own fields and in considered ring heads alone, or a
millisecond that passes. -/
theorem step_cases {s t : State} (h : step s = .next t) :
    (∃ (i : Instr) (u : State), exec i u = .next t ∧ u.retained = s.retained
        ∧ (∀ R : Retained → Retained → Prop, State.Acts R s u) ∧ (s.RetainedHolds → ¬ LosesContent u i))
      ∨ t = s.intakeLooks.passMs := by
  cases pending : s.pending with
  | cons i rest =>
    rw [step_of_pending pending] at h
    refine .inl ⟨i, _, h, rfl, fun R => .single (.frame _ _ _ _ _ rest id), fun holds => ?_⟩
    obtain ⟨battery, power⟩ := holds
    rw [pending] at battery power
    cases i <;> try exact id
    case vbatLoss =>
      intro (falls : s.power.vddAbove = false)
      rw [battery rfl] at falls
      cases falls
    case powerOnReset vdd =>
      obtain ⟨held, cut⟩ := power vdd rfl
      rintro (⟨falls, noBattery⟩ | ⟨which, cuts⟩)
      · rcases held with k | k
        · rw [k] at falls; cases falls
        · rw [show s.power.vbatPresent = false from noBattery] at k; cases k
      · exact cut which cuts
  | nil =>
    rw [step_of_idle pending] at h
    match due : s.intakeLooks.dueNow with
    | [] =>
      rw [State.idle_of_nothing_due due] at h
      exact .inr (Host.Outcome.next.inj h).symm
    | [i] =>
      rw [State.idle_of_one_due due] at h
      exact .inl ⟨i, _, h, s.intakeLooks_retained, fun R => s.intakeLooks_acts,
        fun _ => State.dueNow_harmless (by rw [due]; exact List.mem_singleton_self i) _⟩
    | i :: j :: rest =>
      obtain ⟨k, mem, idle⟩ := State.idle_of_several_due (s := s) (by rw [due]; simp)
      rw [idle] at h
      exact .inl ⟨k, _, h, s.intakeLooks_retained,
        fun R => s.intakeLooks_acts.trans (.single (.frame _ _ _ _ (s.seed + 1) _ id)),
        fun _ => State.dueNow_harmless mem _⟩

/-- Every step is a run of acts, whatever becomes of the retained domain. -/
theorem step_acts {s t : State} (h : step s = .next t) : State.Acts (fun _ _ => True) s t := by
  rcases step_cases h with ⟨i, u, h, -, before, -⟩ | rfl
  · exact (before _).trans (exec_acts (fun _ => trivial) i (fun _ _ _ => trivial) (fun _ _ _ _ => trivial) h)
  · exact s.intakeLooks_acts.trans (State.passMs_acts (fun _ => trivial) _)

/-- A step that loses no retained content changes it as tables are written. -/
theorem step_acts_tidy {s t : State} (holds : s.RetainedHolds) (h : step s = .next t) : State.Acts Retained.Tidy s t := by
  have moves : ∀ {t r : Retained}, t.Moves r → t.Tidy r := fun h => h.toTidy
  rcases step_cases h with ⟨i, u, h, -, before, harmless⟩ | rfl
  · exact (before _).trans (exec_acts moves i (fun loss => absurd loss (harmless holds)) (fun _ _ _ => id) h)
  · exact s.intakeLooks_acts.trans (State.passMs_acts moves _)

end Sys2Proof.Machine
end

section
/-! PROOF. Invariants act by act: shared memory, the free line list, the rings, the signal state, the retained tables and the
account limits; then the statements about them. -/

namespace Sys2Proof.Machine

variable {R : Retained → Retained → Prop}

/-! ## What queueing leaves alone -/

section
variable (s : State) (c : CtxId) (l : LineId) (kind : ProgressKind) (u : UnsolicitedKind)

theorem State.queueProgress_fields :
    (s.queueProgress c l kind).waiting = s.waiting ∧ (s.queueProgress c l kind).freeLines = s.freeLines
      ∧ (s.queueProgress c l kind).schedule = s.schedule ∧ (s.queueProgress c l kind).lines = s.lines
      ∧ (s.queueProgress c l kind).meters = s.meters ∧ (s.queueProgress c l kind).retained = s.retained := by
  unfold State.queueProgress
  split <;> exact ⟨rfl, rfl, rfl, rfl, rfl, rfl⟩

theorem State.queueProgressIfAsked_fields :
    (s.queueProgressIfAsked c l kind).waiting = s.waiting ∧ (s.queueProgressIfAsked c l kind).freeLines = s.freeLines
      ∧ (s.queueProgressIfAsked c l kind).schedule = s.schedule ∧ (s.queueProgressIfAsked c l kind).lines = s.lines
      ∧ (s.queueProgressIfAsked c l kind).meters = s.meters
      ∧ (s.queueProgressIfAsked c l kind).retained = s.retained := by
  unfold State.queueProgressIfAsked
  split
  · exact s.queueProgress_fields c l kind
  · exact ⟨rfl, rfl, rfl, rfl, rfl, rfl⟩

@[simp] theorem State.queueProgressIfAsked_waiting : (s.queueProgressIfAsked c l kind).waiting = s.waiting :=
  (s.queueProgressIfAsked_fields c l kind).1

@[simp] theorem State.queueProgressIfAsked_freeLines : (s.queueProgressIfAsked c l kind).freeLines = s.freeLines :=
  (s.queueProgressIfAsked_fields c l kind).2.1

@[simp] theorem State.queueProgressIfAsked_schedule : (s.queueProgressIfAsked c l kind).schedule = s.schedule :=
  (s.queueProgressIfAsked_fields c l kind).2.2.1

@[simp] theorem State.queueProgressIfAsked_lines : (s.queueProgressIfAsked c l kind).lines = s.lines :=
  (s.queueProgressIfAsked_fields c l kind).2.2.2.1

@[simp] theorem State.queueProgressIfAsked_meters : (s.queueProgressIfAsked c l kind).meters = s.meters :=
  (s.queueProgressIfAsked_fields c l kind).2.2.2.2.1

@[simp] theorem State.queueProgressIfAsked_retained : (s.queueProgressIfAsked c l kind).retained = s.retained :=
  (s.queueProgressIfAsked_fields c l kind).2.2.2.2.2

@[simp] theorem State.queueProgressIfAsked_meter (k : LineId) :
    (s.queueProgressIfAsked c l kind).meter k = s.meter k := State.meter_congr (by simp) k

/-- A PROGRESS report that is dropped counts in its context alone (R147). -/
theorem State.queueProgressIfAsked_notes (d : CtxId) : (s.ctx d).Notes ((s.queueProgressIfAsked c l kind).ctx d) := by
  unfold State.queueProgressIfAsked State.queueProgress
  split
  · split
    · exact ⟨rfl, rfl, rfl, rfl, rfl, rfl, rfl⟩
    · rw [State.modCtx_ctx]
      split
      · rename_i h; subst h; exact ⟨rfl, rfl, rfl, rfl, rfl, rfl, rfl⟩
      · exact ⟨rfl, rfl, rfl, rfl, rfl, rfl, rfl⟩
  · exact ⟨rfl, rfl, rfl, rfl, rfl, rfl, rfl⟩

theorem State.queueUnsolicited_fields :
    (s.queueUnsolicited u).ctxs = s.ctxs ∧ (s.queueUnsolicited u).waiting = s.waiting
      ∧ (s.queueUnsolicited u).freeLines = s.freeLines ∧ (s.queueUnsolicited u).schedule = s.schedule
      ∧ (s.queueUnsolicited u).lines = s.lines ∧ (s.queueUnsolicited u).meters = s.meters
      ∧ (s.queueUnsolicited u).retained = s.retained := by
  unfold State.queueUnsolicited
  split <;> exact ⟨rfl, rfl, rfl, rfl, rfl, rfl, rfl⟩

@[simp] theorem State.queueUnsolicited_ctxs : (s.queueUnsolicited u).ctxs = s.ctxs := (s.queueUnsolicited_fields u).1

@[simp] theorem State.queueUnsolicited_waiting : (s.queueUnsolicited u).waiting = s.waiting :=
  (s.queueUnsolicited_fields u).2.1

@[simp] theorem State.queueUnsolicited_freeLines : (s.queueUnsolicited u).freeLines = s.freeLines :=
  (s.queueUnsolicited_fields u).2.2.1

@[simp] theorem State.queueUnsolicited_schedule : (s.queueUnsolicited u).schedule = s.schedule :=
  (s.queueUnsolicited_fields u).2.2.2.1

@[simp] theorem State.queueUnsolicited_lines : (s.queueUnsolicited u).lines = s.lines :=
  (s.queueUnsolicited_fields u).2.2.2.2.1

@[simp] theorem State.queueUnsolicited_meters : (s.queueUnsolicited u).meters = s.meters :=
  (s.queueUnsolicited_fields u).2.2.2.2.2.1

@[simp] theorem State.queueUnsolicited_retained : (s.queueUnsolicited u).retained = s.retained :=
  (s.queueUnsolicited_fields u).2.2.2.2.2.2

@[simp] theorem State.queueUnsolicited_ctx (d : CtxId) : (s.queueUnsolicited u).ctx d = s.ctx d :=
  State.ctx_congr (by simp) d

@[simp] theorem State.queueUnsolicited_line (k : LineId) : (s.queueUnsolicited u).line k = s.line k :=
  State.line_congr (by simp) k

@[simp] theorem State.queueUnsolicited_meter (k : LineId) : (s.queueUnsolicited u).meter k = s.meter k :=
  State.meter_congr (by simp) k

end

/-! ## What each act leaves of control block, intake and memory -/

theorem State.glareTurn_keeps (s : State) (l : LineId) : s.Keeps (s.glareTurn l) := by
  unfold State.glareTurn
  split
  · split
    · exact (s.modLine_keeps l _).trans (State.glareReturn_keeps _ _)
    · exact s.modLine_keeps l _
  · exact s.modLine_keeps l _

theorem State.clearPosted_cases (s : State) (b : EntryBody) :
    s.clearPosted b = s
      ∨ ∃ c, b = .callEnd c ∧ (s.ctx c).state = .ended ∧ s.clearPosted b = s.modCtx c fun _ => Context.cleared := by
  unfold State.clearPosted
  split
  · rename_i c
    split
    · rename_i h; exact .inr ⟨c, rfl, h, rfl⟩
    · exact .inl rfl
  all_goals exact .inl rfl

theorem State.clearPosted_keeps (s : State) (b : EntryBody) : s.Keeps (s.clearPosted b) := by
  rcases s.clearPosted_cases b with h | ⟨c, -, -, h⟩ <;> rw [h]
  exact s.modCtx_keeps _ _

/-! ## Shared memory -/

/-- An act writes into shared memory as a store does, or not at all. -/
theorem State.Act.memoryCanonical {s t : State} (act : State.Act R s t) (h : s.MemoryCanonical) : t.MemoryCanonical := by
  have kept : ∀ {u : State}, s.Keeps u → u.MemoryCanonical := fun k => by
    unfold State.MemoryCanonical; rw [k.mem]; exact h
  cases act with
  | memory m canonical => exact canonical h
  | ends c o _ => exact kept (s.endContext_keeps c o)
  | sweep => exact kept s.sweep_keeps
  | endsOnLine l o => exact kept (s.endOnLine_keeps l o)
  | faults l _ => exact kept (s.faultLine_keeps l)
  | grant c l _ _ => exact kept (s.grant_keeps c l)
  | glare l _ => exact kept (s.glareTurn_keeps l)
  | refuses c x o _ _ _ _ => exact kept ((s.modCtx_keeps c _).trans (State.endContext_keeps _ c o))
  | dueLost c _ =>
    exact kept (((s.unschedule_keeps c).trans (State.modCtx_keeps _ c _)).trans (State.endContext_keeps _ c _))
  | posted e rest _ => exact kept ((s.modReport_keeps _).trans (State.clearPosted_keeps _ _))
  | _ => exact h

/-- Settles O4: every act keeps the canonical form. -/
theorem memoryStaysCanonical : Obligations.MemoryStaysCanonical :=
  fun _ _ h k => State.Acts.keeps State.Act.memoryCanonical (step_acts k) h

/-! ## The free line list -/

/-- The free line list stays, and so do the lines that are IDLE. -/
def State.SameIdle (s t : State) : Prop :=
  t.freeLines = s.freeLines ∧ ∀ l : LineId, (t.line l).state = .idle ↔ (s.line l).state = .idle

theorem State.SameIdle.trans {s t u : State} (h : s.SameIdle t) (k : t.SameIdle u) : s.SameIdle u :=
  ⟨k.1.trans h.1, fun l => (k.2 l).trans (h.2 l)⟩

theorem State.SameIdle.of_lines {s t : State} (free : t.freeLines = s.freeLines) (lines : t.lines = s.lines) :
    s.SameIdle t := ⟨free, fun l => by rw [State.line_congr lines]⟩

theorem State.modCtx_sameIdle (s : State) (c : CtxId) (f : Context → Context) : s.SameIdle (s.modCtx c f) :=
  .of_lines rfl rfl

theorem State.FreeListExact.of_sameIdle {s t : State} (h : s.FreeListExact) (k : s.SameIdle t) : t.FreeListExact := by
  obtain ⟨nodup, mem⟩ := h
  refine ⟨k.1 ▸ nodup, fun l => ?_⟩
  rw [k.1, mem l, k.2 l]

theorem LineState.offHook_ne_idle {st : LineState} (h : st.offHook = true) : st ≠ .idle := by
  rintro rfl; cases h

/-- A line that clears was not IDLE and does not become so (R73). -/
theorem State.clearLine_sameIdle (s : State) (l : LineId) : s.SameIdle (s.clearLine l) := by
  refine ⟨by simp, fun k => ?_⟩
  rw [State.clearLine_line]
  split
  · rename_i h
    obtain ⟨rfl, offHook⟩ := h
    exact ⟨fun h => LineState.noConfusion h, fun h => absurd h (LineState.offHook_ne_idle offHook)⟩
  · rfl

theorem State.endContext_sameIdle (s : State) (c : CtxId) (o : CallOutcome) : s.SameIdle (s.endContext c o) := by
  refine ⟨s.endContext_freeLines c o, fun k => ?_⟩
  rw [State.endContext_line]
  split
  · rename_i h
    exact ⟨fun k => LineState.noConfusion k, fun k => absurd k (LineState.offHook_ne_idle h.2)⟩
  · rfl

theorem State.enterRetryWait_fields (s : State) (c : CtxId) (l : LineId) (o : CallOutcome) :
    (s.enterRetryWait c l o).freeLines = s.freeLines ∧ (s.enterRetryWait c l o).lines = s.lines
      ∧ (s.enterRetryWait c l o).meters = s.meters ∧ (s.enterRetryWait c l o).waiting = s.waiting
      ∧ (s.enterRetryWait c l o).retained = s.retained := by
  unfold State.enterRetryWait
  dsimp only
  simp

theorem State.judgeFailure_sameIdle (s : State) (c : CtxId) (l : LineId) (o : CallOutcome) :
    s.SameIdle (s.judgeFailure c l o) := by
  rcases s.judgeFailure_cases c l o with ⟨h, -⟩ | ⟨h, -⟩ | ⟨h, -⟩ <;> rw [h]
  · exact .of_lines (s.enterRetryWait_fields c l o).1 (s.enterRetryWait_fields c l o).2.1
  · exact s.endContext_sameIdle _ _
  · exact s.endContext_sameIdle _ _

theorem State.endOnLine_sameIdle (s : State) (l : LineId) (o : CallOutcome) : s.SameIdle (s.endOnLine l o) := by
  have detached : ∀ c, s.SameIdle ((s.clearLine l).detach c o) := fun c =>
    (s.clearLine_sameIdle l).trans (.of_lines rfl rfl)
  rcases s.endOnLine_cases l o with ⟨-, h⟩ | ⟨c, -, -, ⟨-, -, h⟩ | ⟨-, h⟩⟩ <;> rw [h]
  · exact s.clearLine_sameIdle l
  · exact (detached c).trans (State.judgeFailure_sameIdle _ _ _ _)
  · exact (detached c).trans (State.endContext_sameIdle _ _ _)

theorem State.modLine_sameIdle {s : State} {l : LineId} {f : Line → Line}
    (h : (f (s.line l)).state = .idle ↔ (s.line l).state = .idle) : s.SameIdle (s.modLine l f) := by
  refine ⟨rfl, fun k => ?_⟩
  rw [State.modLine_line]
  split
  · rename_i e; subst e; exact h
  · rfl

/-- A line fault off the hook (R77): the line was not IDLE and is FAULT. -/
theorem State.faultLine_sameIdle {s : State} {l : LineId} (offHook : (s.line l).state.offHook = true) :
    s.SameIdle (s.faultLine l) := by
  have faulted : s.SameIdle ((s.modLine l Line.toFault).setMeter l none) :=
    (State.modLine_sameIdle (f := Line.toFault)
      ⟨fun h => LineState.noConfusion h, fun h => absurd h (LineState.offHook_ne_idle offHook)⟩).trans
      (.of_lines rfl rfl)
  unfold State.faultLine
  dsimp only
  have queued : ∀ u : State, u.SameIdle (u.queueUnsolicited (.lineFault l)) := fun u => .of_lines (by simp) (by simp)
  refine .trans ?_ (queued _)
  split
  · split
    · exact (faulted.trans (State.modCtx_sameIdle _ _ _)).trans (State.endContext_sameIdle _ _ _)
    · exact faulted
  · exact faulted

/-- Line `l` has left the free line list and is not IDLE, all others are as they were. -/
theorem State.FreeListExact.leaves {s t : State} (h : s.FreeListExact) {l : LineId}
    (free : t.freeLines = s.freeLines.filter fun k => decide (k ≠ l)) (busy : (t.line l).state ≠ .idle)
    (others : ∀ k, k ≠ l → ((t.line k).state = .idle ↔ (s.line k).state = .idle)) : t.FreeListExact := by
  obtain ⟨nodup, mem⟩ := h
  refine ⟨free ▸ nodup.filter _, fun k => ?_⟩
  rw [free, List.mem_filter, mem k]
  by_cases e : k = l
  · subst e; simp [busy]
  · simp [e, others k e]

/-- Line `l` has joined the free line list as IDLE, which it was not, all others are as they were. -/
theorem State.FreeListExact.joins {s t : State} (h : s.FreeListExact) {l : LineId} (busy : (s.line l).state ≠ .idle)
    (free : t.freeLines = s.freeLines ++ [l]) (idle : (t.line l).state = .idle)
    (others : ∀ k, k ≠ l → ((t.line k).state = .idle ↔ (s.line k).state = .idle)) : t.FreeListExact := by
  obtain ⟨nodup, mem⟩ := h
  have fresh : l ∉ s.freeLines := fun k => busy ((mem l).mp k)
  refine ⟨?_, fun k => ?_⟩
  · rw [free, List.nodup_append]
    exact ⟨nodup, List.nodup_singleton l, fun a ha b hb => by
      rw [List.mem_singleton.mp hb]; rintro rfl; exact fresh ha⟩
  · rw [free, List.mem_append, mem k, List.mem_singleton]
    by_cases e : k = l
    · subst e; simp [idle]
    · simp [e, others k e]

theorem allLines_nodup : allLines.Nodup := by decide

theorem mem_allLines (l : LineId) : l ∈ allLines := by revert l; decide

/-- The entry to HALTED puts every line that was not IDLE on the free line list (R79). -/
theorem State.FreeListExact.halt {s : State} (h : s.FreeListExact) (cause : ErrorCode) : (s.halt cause).FreeListExact := by
  obtain ⟨nodup, mem⟩ := h
  have idle : ∀ l, ((s.halt cause).line l).state = .idle := fun l => by
    show (({ s with lines := s.lines.map Line.halt } : State).line l).state = .idle
    rw [State.map_lines_line]; rfl
  refine ⟨?_, fun l => ⟨fun _ => idle l, fun _ => ?_⟩⟩
  · show (s.freeLines ++ allLines.filter fun l => decide ((s.line l).state ≠ .idle)).Nodup
    rw [List.nodup_append]
    refine ⟨nodup, allLines_nodup.filter _, fun a ha b hb => ?_⟩
    rintro rfl
    exact of_decide_eq_true (List.mem_filter.mp hb).2 ((mem a).mp ha)
  · show l ∈ s.freeLines ++ allLines.filter fun l => decide ((s.line l).state ≠ .idle)
    rw [List.mem_append, List.mem_filter, mem l]
    by_cases k : (s.line l).state = .idle
    · exact .inl k
    · exact .inr ⟨mem_allLines l, decide_eq_true k⟩

theorem State.resetBlocks_line (s : State) (cause : ResetCause) (l : LineId) :
    (s.resetBlocks cause).line l
      = Line.atReset (s.line l).senseA (s.line l).senseB (s.line l).toneRaw (s.line l).ringRaw :=
  State.map_lines_line s _ l

theorem State.glareTurn_sameIdle {s : State} {l : LineId} (seized : (s.line l).state = .seize) :
    s.SameIdle (s.glareTurn l) := by
  have rings : s.SameIdle (s.modLine l Line.toGlare) :=
    State.modLine_sameIdle ⟨fun h => LineState.noConfusion h, fun h => by rw [seized] at h; cases h⟩
  unfold State.glareTurn
  split
  · split
    · refine rings.trans ?_
      unfold State.glareReturn
      dsimp only
      split
      · exact (State.modCtx_sameIdle _ _ _).trans (State.endContext_sameIdle _ _ _)
      · exact .of_lines rfl rfl
    · exact rings
  · exact rings

theorem State.Act.freeListExact {s t : State} (act : State.Act R s t) (h : s.FreeListExact) : t.FreeListExact := by
  cases act with
  | lines v moves => exact h.of_sameIdle ⟨rfl, fun l => (moves l).idle⟩
  | leavesFree l f _ _ busy _ _ =>
    exact h.leaves rfl (by simpa using busy) fun k e => by simp [State.modLine_line_other _ _ _ _ e]
  | joinsFree l f _ busy idle _ _ =>
    exact h.joins busy rfl (by simpa using idle) fun k e => by simp [State.modLine_line_other _ _ _ _ e]
  | ends c o _ => exact h.of_sameIdle (s.endContext_sameIdle c o)
  | sweep =>
    exact State.sweep_induct (P := State.FreeListExact)
      (fun u c _ k => k.of_sameIdle (u.endContext_sameIdle c _)) h
  | endsOnLine l o => exact h.of_sameIdle (s.endOnLine_sameIdle l o)
  | faults l offHook => exact h.of_sameIdle (State.faultLine_sameIdle offHook)
  | grant c l _ _ =>
    refine h.leaves (l := l) (by unfold State.grant; simp [State.leaveFree]) ?_ fun k e => ?_
    · rw [State.grant_line]; exact LineState.noConfusion
    · unfold State.grant; simp [State.modLine_line_other _ _ _ _ e]
  | glare l seized => exact h.of_sameIdle (State.glareTurn_sameIdle seized)
  | refuses c x o _ _ _ _ => exact h.of_sameIdle ((s.modCtx_sameIdle c _).trans (State.endContext_sameIdle _ c o))
  | accepts c l x _ _ _ _ _ _ _ ringing =>
    exact h.of_sameIdle ((s.modCtx_sameIdle c _).trans (State.modLine_sameIdle
      ⟨fun k => LineState.noConfusion k, fun k => by rw [State.modCtx_line, ringing] at k; cases k⟩))
  | dueLost c _ =>
    have unscheduled : s.SameIdle (s.unschedule c) := .of_lines rfl rfl
    exact h.of_sameIdle ((unscheduled.trans (State.modCtx_sameIdle _ c _)).trans (State.endContext_sameIdle _ c _))
  | posted e rest _ =>
    rcases (s.modReport fun w => { w with outbox := rest }).clearPosted_cases e.body with k | ⟨c, -, -, k⟩ <;> rw [k]
    · exact h
    · exact h
  | halts k x w v cause _ _ moves =>
    have same : s.SameIdle { s with ctl := k, intake := x, report := w, lines := v } := ⟨rfl, fun l => (moves l).idle⟩
    exact State.FreeListExact.halt (h.of_sameIdle same) cause
  | resets cause =>
    refine ⟨allLines_nodup, fun l => ⟨fun _ => ?_, fun _ => mem_allLines l⟩⟩
    rw [State.resetBlocks_line]; rfl
  | _ => exact h

/-- Settles O5: every act keeps the free line list exact. -/
theorem freeListStaysExact : Obligations.FreeListStaysExact :=
  fun _ _ h k => State.Acts.keeps State.Act.freeListExact (step_acts k) h

/-! ## The rings -/

/-- Nothing that keeps control block, intake and the report ring's indices moves a ring out of its size. -/
theorem State.RingsBounded.of_same {s t : State} (h : s.RingsBounded) (ctl : t.ctl = s.ctl) (intake : t.intake = s.intake)
    (adopted : t.report.adopted = s.report.adopted) (producer : t.report.producer = s.report.producer)
    (cached : t.report.cachedConsumer = s.report.cachedConsumer) (size : t.report.size = s.report.size) :
    t.RingsBounded := by
  intro running
  rw [ctl] at running
  obtain ⟨urgent, routine, report⟩ := h running
  rw [adopted, producer, cached, size, State.ring_congr intake, State.ring_congr intake]
  exact ⟨urgent, routine, report⟩

/-- The report writer but for its outbox and the missed count. -/
def ReportWriter.Same (w v : ReportWriter) : Prop := v = { w with outbox := v.outbox, missed := v.missed }

theorem ReportWriter.Same.trans {u v w : ReportWriter} (h : u.Same v) (k : v.Same w) : u.Same w := by
  unfold ReportWriter.Same at *
  rw [k, h]

theorem State.queueProgress_report (s : State) (c : CtxId) (l : LineId) (kind : ProgressKind) :
    s.report.Same (s.queueProgress c l kind).report := by
  unfold State.queueProgress
  split <;> rfl

theorem State.queueProgressIfAsked_report (s : State) (c : CtxId) (l : LineId) (kind : ProgressKind) :
    s.report.Same (s.queueProgressIfAsked c l kind).report := by
  unfold State.queueProgressIfAsked
  split
  · exact s.queueProgress_report c l kind
  · rfl

theorem State.queueUnsolicited_report (s : State) (u : UnsolicitedKind) : s.report.Same (s.queueUnsolicited u).report := by
  unfold State.queueUnsolicited
  split <;> rfl

theorem State.endContext_report_same (s : State) (c : CtxId) (o : CallOutcome) :
    s.report.Same (s.endContext c o).report := by
  rw [State.endContext_report]; rfl

theorem State.judgeFailure_report (s : State) (c : CtxId) (l : LineId) (o : CallOutcome) :
    s.report.Same (s.judgeFailure c l o).report := by
  rcases s.judgeFailure_cases c l o with ⟨h, -⟩ | ⟨h, -⟩ | ⟨h, -⟩ <;> rw [h]
  · unfold State.enterRetryWait
    exact State.queueProgressIfAsked_report _ _ _ _
  · exact s.endContext_report_same _ _
  · exact s.endContext_report_same _ _

theorem State.endOnLine_report (s : State) (l : LineId) (o : CallOutcome) : s.report.Same (s.endOnLine l o).report := by
  have detached : ∀ c, ((s.clearLine l).detach c o).report = s.report := fun c => by simp [State.detach]
  rcases s.endOnLine_cases l o with ⟨-, h⟩ | ⟨c, -, -, ⟨-, -, h⟩ | ⟨-, h⟩⟩ <;> rw [h]
  · rw [State.clearLine_report]; rfl
  · rw [← detached c]; exact State.judgeFailure_report _ _ _ _
  · rw [← detached c]; exact State.endContext_report_same _ _ _

theorem State.faultLine_report (s : State) (l : LineId) : s.report.Same (s.faultLine l).report := by
  unfold State.faultLine
  dsimp only
  refine ReportWriter.Same.trans ?_ (State.queueUnsolicited_report _ _)
  split
  · split
    · exact State.endContext_report_same (((s.modLine l Line.toFault).setMeter l none).detach _ _) _ _
    · rfl
  · rfl

theorem State.grant_report (s : State) (c : CtxId) (l : LineId) : s.report.Same (s.grant c l).report := by
  unfold State.grant
  exact State.queueProgressIfAsked_report _ _ _ _

theorem State.glareTurn_report (s : State) (l : LineId) : s.report.Same (s.glareTurn l).report := by
  unfold State.glareTurn
  split
  · split
    · unfold State.glareReturn
      dsimp only
      split
      · exact State.endContext_report_same (((s.modLine l Line.toGlare).modCtx _ _)) _ _
      · rfl
    · rfl
  · rfl

theorem State.sweep_report (s : State) : s.report.Same s.sweep.report :=
  State.sweep_induct (P := fun t => s.report.Same t.report)
    (fun t c _ h => h.trans (t.endContext_report_same c _)) rfl

theorem State.clearPosted_report (s : State) (b : EntryBody) : (s.clearPosted b).report = s.report := by
  rcases s.clearPosted_cases b with h | ⟨c, -, -, h⟩ <;> rw [h]
  rfl

/-- Ring bounds and the signal state do not depend on the outbox. -/
theorem State.Keeps.ringsBounded {s t : State} (k : s.Keeps t) (same : s.report.Same t.report) (h : s.RingsBounded) :
    t.RingsBounded := by
  unfold ReportWriter.Same at same
  exact h.of_same k.ctl k.intake (by rw [same]) (by rw [same]) (by rw [same]) (by rw [same])

theorem State.Keeps.signalKept {s t : State} (k : s.Keeps t) (same : s.report.Same t.report) (h : s.SignalKept) :
    t.SignalKept := by
  unfold ReportWriter.Same at same
  unfold State.SignalKept at h ⊢
  rw [same, k.ctl]
  exact h

/-- What an act does to control block, intake and report writer (but for the outbox): nothing, unless it is one that says so. -/
theorem State.Act.keeps_report {s t : State} (act : State.Act R s t) :
    (s.Keeps t ∧ s.report.Same t.report)
      ∨ (∃ (k : Control) (p : Power) (n m d : Nat) (q : List Instr), (s.ctl.engine = .halted → k.engine = .halted)
        ∧ t = { s with ctl := k, power := p, uptime := n, uptimeMs := m, seed := d, pending := q })
      ∨ (∃ x, (∀ r, (s.ring r).Bounded → (({ s with intake := x } : State).ring r).Bounded) ∧ t = { s with intake := x })
      ∨ (∃ w, (s.RingsBounded → ({ s with report := w } : State).RingsBounded)
        ∧ (s.SignalKept → ({ s with report := w } : State).SignalKept) ∧ t = { s with report := w })
      ∨ (∃ m, t = { s with mem := m })
      ∨ (∃ (u : State) (cause : ErrorCode), t = u.halt cause ∧ (1 ≤ s.report.batch → 1 ≤ u.report.batch))
      ∨ ∃ cause, t = s.resetBlocks cause := by
  have same : ∀ w : ReportWriter, w.Same w := fun _ => rfl
  cases act with
  | frame k p n m d q halted => exact .inr (.inl ⟨k, p, n, m, d, q, halted, rfl⟩)
  | memory m _ => exact .inr (.inr (.inr (.inr (.inl ⟨m, rfl⟩))))
  | rings x bounded => exact .inr (.inr (.inl ⟨x, bounded, rfl⟩))
  | writer w _ bounded signal => exact .inr (.inr (.inr (.inl ⟨w, bounded, signal, rfl⟩)))
  | halts k x w v cause _ batch _ => exact .inr (.inr (.inr (.inr (.inr (.inl ⟨_, cause, rfl, batch⟩)))))
  | resets cause => exact .inr (.inr (.inr (.inr (.inr (.inr ⟨cause, rfl⟩)))))
  | ends c o _ => exact .inl ⟨s.endContext_keeps c o, s.endContext_report_same c o⟩
  | sweep => exact .inl ⟨s.sweep_keeps, s.sweep_report⟩
  | endsOnLine l o => exact .inl ⟨s.endOnLine_keeps l o, s.endOnLine_report l o⟩
  | faults l _ => exact .inl ⟨s.faultLine_keeps l, s.faultLine_report l⟩
  | grant c l _ _ => exact .inl ⟨s.grant_keeps c l, s.grant_report c l⟩
  | glare l _ => exact .inl ⟨s.glareTurn_keeps l, s.glareTurn_report l⟩
  | refuses c x o _ _ _ _ =>
    exact .inl ⟨(s.modCtx_keeps c _).trans (State.endContext_keeps _ c o), State.endContext_report_same (s.modCtx c _) c o⟩
  | dueLost c _ =>
    exact .inl ⟨((s.unschedule_keeps c).trans (State.modCtx_keeps _ c _)).trans (State.endContext_keeps _ c _),
      State.endContext_report_same ((s.unschedule c).modCtx c _) c _⟩
  | posted e rest _ =>
    refine .inl ⟨(s.modReport_keeps _).trans (State.clearPosted_keeps _ _), ?_⟩
    rw [State.clearPosted_report]; rfl
  | _ => exact .inl ⟨⟨rfl, rfl, rfl, rfl, rfl, rfl, rfl, rfl⟩, rfl⟩

theorem State.Act.ringsBounded {s t : State} (act : State.Act R s t) (h : s.RingsBounded) : t.RingsBounded := by
  rcases act.keeps_report with ⟨k, same⟩ | ⟨k, p, n, m, d, q, halted, rfl⟩ | ⟨x, bounded, rfl⟩ | ⟨w, bounded, -, rfl⟩
    | ⟨m, rfl⟩ | ⟨u, cause, rfl, -⟩ | ⟨cause, rfl⟩
  · exact k.ringsBounded same h
  · exact fun running => h fun engine => running (halted engine)
  · intro running
    obtain ⟨urgent, routine, report⟩ := h running
    exact ⟨bounded .urgent urgent, bounded .routine routine, report⟩
  · exact bounded h
  · exact h
  · exact fun running => absurd rfl running
  · refine fun _ => ⟨fun _ => ?_, fun _ => ?_, fun adopted => Bool.noConfusion adopted⟩
    · exact (by decide : (Intake.initial.urgent.cachedProducer - Intake.initial.urgent.consumer).toNat
        ≤ Intake.initial.urgent.size)
    · exact (by decide : (Intake.initial.routine.cachedProducer - Intake.initial.routine.consumer).toNat
        ≤ Intake.initial.routine.size)

/-- Settles O10: every act keeps the rings within their sizes. -/
theorem ringsStayBounded : Obligations.RingsStayBounded :=
  fun _ _ h k => State.Acts.keeps State.Act.ringsBounded (step_acts k) h

/-! ## The signal state -/

theorem State.halt_signalKept {u : State} (batch : 1 ≤ u.report.batch) (cause : ErrorCode) :
    (u.halt cause).SignalKept := by
  have timer : (u.halt cause).report.holdTimer = .stopped := by
    show u.report.halt.holdTimer = .stopped
    unfold ReportWriter.halt
    split <;> rfl
  refine ⟨?_, fun k => absurd timer k, fun running => absurd rfl running⟩
  show 1 ≤ u.report.halt.batch
  unfold ReportWriter.halt
  split <;> exact batch

theorem State.Act.signalKept {s t : State} (act : State.Act R s t) (h : s.SignalKept) : t.SignalKept := by
  rcases act.keeps_report with ⟨k, same⟩ | ⟨k, p, n, m, d, q, halted, rfl⟩ | ⟨x, -, rfl⟩ | ⟨w, -, signal, rfl⟩
    | ⟨m, rfl⟩ | ⟨u, cause, rfl, batch⟩ | ⟨cause, rfl⟩
  · exact k.signalKept same h
  · exact ⟨h.1, h.2.1, fun running => h.2.2 fun engine => running (halted engine)⟩
  · exact h
  · exact signal h
  · exact h
  · exact State.halt_signalKept (batch h.1) cause
  · exact ⟨Nat.le_refl 1, fun k => absurd rfl k, fun _ _ => ⟨Nat.one_pos, HoldTimer.noConfusion⟩⟩

/-- Settles O11: every act keeps the signal state. -/
theorem signalStaysKept : Obligations.SignalStaysKept :=
  fun _ _ h k => State.Acts.keeps State.Act.signalKept (step_acts k) h

/-! ## The retained domain -/

/-- The bookkeeping of an ended call changes its account alone, and no total (R136). -/
theorem State.afterEndRetained_moves (s : State) (c : CtxId) : s.retained.Moves (s.afterEndRetained c) := by
  unfold State.afterEndRetained
  split
  · split
    · exact Retained.modAccount_moves _ _ _ fun limited => ⟨limited, rfl, le_max_left _ _⟩
    · exact .refl _
  · exact .refl _

theorem State.endContext_moves (s : State) (c : CtxId) (o : CallOutcome) :
    s.retained.Moves (s.endContext c o).retained := by
  rw [State.endContext_retained]; exact s.afterEndRetained_moves c

theorem State.judgeFailure_moves (s : State) (c : CtxId) (l : LineId) (o : CallOutcome) :
    s.retained.Moves (s.judgeFailure c l o).retained := by
  rcases s.judgeFailure_cases c l o with ⟨h, -⟩ | ⟨h, -⟩ | ⟨h, -⟩ <;> rw [h]
  · rw [(s.enterRetryWait_fields c l o).2.2.2.2]
  · exact s.endContext_moves _ _
  · exact s.endContext_moves _ _

theorem State.endOnLine_moves (s : State) (l : LineId) (o : CallOutcome) :
    s.retained.Moves (s.endOnLine l o).retained := by
  have detached : ∀ c, ((s.clearLine l).detach c o).retained = s.retained := fun c => by simp [State.detach]
  rcases s.endOnLine_cases l o with ⟨-, h⟩ | ⟨c, -, -, ⟨-, -, h⟩ | ⟨-, h⟩⟩ <;> rw [h]
  · rw [State.clearLine_retained]
  · rw [← detached c]; exact State.judgeFailure_moves _ _ _ _
  · rw [← detached c]; exact State.endContext_moves _ _ _

theorem State.faultLine_moves (s : State) (l : LineId) : s.retained.Moves (s.faultLine l).retained := by
  unfold State.faultLine
  dsimp only
  rw [State.queueUnsolicited_retained]
  split
  · split
    · exact State.endContext_moves (((s.modLine l Line.toFault).setMeter l none).detach _ _) _ _
    · exact .refl _
  · exact .refl _

theorem State.glareTurn_moves (s : State) (l : LineId) : s.retained.Moves (s.glareTurn l).retained := by
  unfold State.glareTurn
  split
  · split
    · unfold State.glareReturn
      dsimp only
      split
      · exact State.endContext_moves (((s.modLine l Line.toGlare).modCtx _ _)) _ _
      · exact .refl _
    · exact .refl _
  · exact .refl _

/-- An act changes the retained domain as a call does, unless it is a change that `R` bounds. -/
theorem State.Act.retained_moves {s t : State} (act : State.Act R s t) :
    s.retained.Moves t.retained ∨ R s.retained t.retained := by
  cases act with
  | retained r change => exact .inr change
  | ends c o _ => exact .inl (s.endContext_moves c o)
  | sweep =>
    exact .inl (State.sweep_induct (P := fun t => s.retained.Moves t.retained)
      (fun t c _ h => h.trans (t.endContext_moves c _)) (.refl _))
  | endsOnLine l o => exact .inl (s.endOnLine_moves l o)
  | faults l _ => exact .inl (s.faultLine_moves l)
  | grant c l _ _ =>
    left
    unfold State.grant
    rw [State.queueProgressIfAsked_retained]
    exact .refl _
  | glare l _ => exact .inl (s.glareTurn_moves l)
  | refuses c x o _ _ _ _ => exact .inl (State.endContext_moves (s.modCtx c _) c o)
  | dueLost c _ => exact .inl (State.endContext_moves ((s.unschedule c).modCtx c _) c _)
  | posted e rest _ =>
    left
    rcases (s.modReport fun w => { w with outbox := rest }).clearPosted_cases e.body with k | ⟨c, -, -, k⟩ <;> rw [k] <;>
      exact .refl _
  | _ => exact .inl (.refl _)

theorem State.Act.sound {s t : State} (act : State.Act Retained.Tidy s t) (h : s.retained.Sound) : t.retained.Sound :=
  act.retained_moves.elim (fun k => k.sound h) fun k => k.sound h

/-- Settles O12: outside a loss of the content every change of a table makes its check word anew, or moves it along. -/
theorem retainedTablesStaySound : Obligations.RetainedTablesStaySound :=
  fun _ _ h holds k => State.Acts.keeps State.Act.sound (step_acts_tidy holds k) h

theorem State.Act.policiesInRange {s t : State} (act : State.Act Retained.Tidy s t) (h : s.PoliciesInRange) :
    t.PoliciesInRange := act.retained_moves.elim (fun k => k.policies h) fun k => k.policies h

/-! ## The account limits -/

/-- A run of acts whose changes of the retained domain let no total pass its limit lets none pass. -/
theorem State.Acts.limited {s t : State} (run : State.Acts Retained.Limited s t) : s.retained.Limited t.retained := by
  induction run with
  | refl => exact .of_accounts rfl
  | tail _ act ih => exact ih.trans (act.retained_moves.elim (fun k => k.limited) id)

/-- SET_LIMIT changes no total (R138). -/
theorem exec_accountSetLimit_total {s t : State} {r : OrderRing} {bus : TakeBus} {tag : Half} {a : AccountId}
    {limited : Bool} {limit : Word} (h : exec (.accountSetLimit r bus tag a limited limit) s = .next t) (b : AccountId) :
    (t.account b).total = (s.account b).total := by
  obtain rfl := Host.Outcome.next.inj h
  have act : ∀ u : State, u.retained = s.retained →
      ((u.actAccount tag a fun x => { x with limited := limited, limit := limit.toNat }).account b).total
        = (s.account b).total := by
    intro u same
    unfold State.actAccount State.queueDone
    rw [State.queue_account, State.modAccount_account, ← State.account_congr same]
    split
    · rename_i e; rw [e]
    · rfl
  have finish : ∀ u : State, (u.finishTake r bus).retained = u.retained := by
    intro u
    unfold State.finishTake
    dsimp only
    split
    · cases r <;> rfl
    · split <;> cases r <;> rfl
  rcases s.takeFrom_cases r bus .doneSlot (setLimitCells tag a limited limit)
      fun t => t.actAccount tag a fun x => { x with limited := limited, limit := limit.toNat } with
    ⟨-, k⟩ | ⟨-, -, k⟩ | ⟨-, -, -, k⟩ | ⟨-, -, -, ⟨n, -, k⟩ | ⟨-, k⟩⟩ <;> rw [k]
  · unfold State.considerRing; rw [State.modRing_account]
  · rfl
  · rw [State.account_congr (finish _)]
    exact act _ (State.considerHeads_fields _ _ _).2.2.2.1
  · rw [State.account_congr (State.considerHeads_fields _ _ _).2.2.2.1]; rfl

theorem exec_noChargePassesLimit {i : Instr} {s t : State} (harmless : ¬ LosesContent s i) (h : exec i s = .next t)
    (a : AccountId) (limited : (t.account a).limited = true) :
    (t.account a).total ≤ max (s.account a).total (t.account a).limit := by
  by_cases sets : SetsLimit i
  · cases i <;> try cases sets
    rw [exec_accountSetLimit_total h a]
    exact le_max_left _ _
  · have run := exec_acts (R := Retained.Limited) (fun k => k.limited) i (fun loss => absurd loss harmless)
      (fun k => absurd k sets) h
    exact (run.limited a limited).2.2

/-- Settles O13: a charge is applied within the limit or refused, SET_LIMIT changes no total, and nothing else raises one. -/
theorem noChargePassesLimit : Obligations.NoChargePassesLimit := by
  intro s t a holds h limited
  rcases step_cases h with ⟨i, u, run, same, -, harmless⟩ | rfl
  · rw [← State.account_congr same]
    exact exec_noChargePassesLimit (harmless holds) run a limited
  · have run : State.Acts Retained.Limited s s.intakeLooks.passMs :=
      s.intakeLooks_acts.trans (State.passMs_acts (fun k => k.limited) _)
    exact (run.limited a limited).2.2

end Sys2Proof.Machine
end

section
/-! PROOF. Invariants act by act: the waiting list, the retry schedule and the tags. -/

namespace Sys2Proof.Machine

variable {R : Retained → Retained → Prop}

/-! ## What the acts on a context leave alone -/

theorem State.OtherCtxs.trans {s t u : State} {c : CtxId} (h : s.OtherCtxs t c) (k : t.OtherCtxs u c) : s.OtherCtxs u c :=
  fun d e => (k d e).trans (h d e)

theorem State.OtherCtxs.of_ctxs {s t : State} (h : t.ctxs = s.ctxs) (c : CtxId) : s.OtherCtxs t c :=
  fun d _ => State.ctx_congr h d

theorem State.modCtx_others (s : State) (c : CtxId) (f : Context → Context) : s.OtherCtxs (s.modCtx c f) c :=
  fun _ e => State.modCtx_ctx_other s c _ f e

theorem State.endContext_others (s : State) (c : CtxId) (o : CallOutcome) : s.OtherCtxs (s.endContext c o) c :=
  fun d e => by rw [State.endContext_ctx, if_neg e]

theorem State.queueProgressIfAsked_others (s : State) (c : CtxId) (l : LineId) (kind : ProgressKind) :
    s.OtherCtxs (s.queueProgressIfAsked c l kind) c := by
  intro d e
  unfold State.queueProgressIfAsked State.queueProgress
  split
  · split
    · rfl
    · exact State.modCtx_ctx_other s c d _ e
  · rfl

@[simp] theorem Context.afterEnd_state (x : Context) (o : CallOutcome) : (x.afterEnd o).state = .ended := rfl

@[simp] theorem Context.afterEnd_due (x : Context) (o : CallOutcome) : (x.afterEnd o).due = none := rfl

theorem State.endContext_ctx_same (s : State) (c : CtxId) (o : CallOutcome) :
    (s.endContext c o).ctx c = (s.ctx c).afterEnd o := by rw [State.endContext_ctx, if_pos rfl]

theorem Context.Notes.trans {x y z : Context} (h : x.Notes y) (k : y.Notes z) : x.Notes z :=
  ⟨k.state.trans h.state, k.tag.trans h.tag, k.origin.trans h.origin, k.due.trans h.due,
    k.currentLine.trans h.currentLine, k.snapshot.trans h.snapshot, k.attempts.trans h.attempts⟩

@[refl] theorem Context.Notes.refl (x : Context) : x.Notes x := ⟨rfl, rfl, rfl, rfl, rfl, rfl, rfl⟩

theorem State.modCtx_notes {s : State} {c : CtxId} {f : Context → Context} (h : (s.ctx c).Notes (f (s.ctx c)))
    (d : CtxId) : (s.ctx d).Notes ((s.modCtx c f).ctx d) := by
  rw [State.modCtx_ctx]
  split
  · rename_i e; subst e; exact h
  · exact .refl _

/-- A context that goes to its line by a grant (R50). -/
def Context.granted (x : Context) (l : LineId) : Context :=
  { x with
    state := .onLine, prevLine := x.lastLine, currentLine := some l, lastLine := some l, attempts := x.attempts + 1 }

theorem State.grant_others (s : State) (c : CtxId) (l : LineId) : s.OtherCtxs (s.grant c l) c := by
  unfold State.grant
  dsimp only
  refine State.OtherCtxs.trans (t := ((s.setWaiting (s.waiting.remove c)).leaveFree l).modCtx c (·.granted l)) ?_ ?_
  · exact State.modCtx_others ((s.setWaiting (s.waiting.remove c)).leaveFree l) c _
  · exact State.queueProgressIfAsked_others _ _ _ _

theorem State.grant_notes (s : State) (c : CtxId) (l : LineId) : ((s.ctx c).granted l).Notes ((s.grant c l).ctx c) := by
  unfold State.grant
  dsimp only
  refine Context.Notes.trans ?_ (State.queueProgressIfAsked_notes _ _ _ _ _)
  rw [State.modLine_ctx, State.modCtx_ctx_same]
  exact .refl _

@[simp] theorem State.grant_waiting (s : State) (c : CtxId) (l : LineId) :
    (s.grant c l).waiting = s.waiting.remove c := by
  unfold State.grant
  rw [State.queueProgressIfAsked_waiting]
  rfl

@[simp] theorem State.grant_schedule (s : State) (c : CtxId) (l : LineId) : (s.grant c l).schedule = s.schedule := by
  unfold State.grant
  rw [State.queueProgressIfAsked_schedule]
  rfl

/-- The uptime at which a failed attempt of context `c` is retried (R106, R107). -/
def State.retryDue (s : State) (c : CtxId) : Nat :=
  satAdd Config.max32 s.uptime ((s.ctx c).snapshot.intervalFor (s.ctx c).attempts)

/-- A context that waits for a retry (R107). -/
def Context.retrying (x : Context) (due : Nat) : Context := { x with state := .retryWait, due := some due }

theorem State.enterRetryWait_others (s : State) (c : CtxId) (l : LineId) (o : CallOutcome) :
    s.OtherCtxs (s.enterRetryWait c l o) c := by
  unfold State.enterRetryWait
  dsimp only
  refine State.OtherCtxs.trans (t := s.modCtx c (·.retrying (s.retryDue c))) (s.modCtx_others c _) ?_
  exact State.queueProgressIfAsked_others _ _ _ _

theorem State.enterRetryWait_notes (s : State) (c : CtxId) (l : LineId) (o : CallOutcome) :
    ((s.ctx c).retrying (s.retryDue c)).Notes ((s.enterRetryWait c l o).ctx c) := by
  unfold State.enterRetryWait
  dsimp only
  refine Context.Notes.trans ?_ (State.queueProgressIfAsked_notes _ _ _ _ _)
  rw [State.setSchedule_ctx, State.modCtx_ctx_same]
  exact .refl _

theorem State.enterRetryWait_schedule (s : State) (c : CtxId) (l : LineId) (o : CallOutcome) :
    (s.enterRetryWait c l o).schedule
      = scheduleInsert (s.modCtx c (·.retrying (s.retryDue c))).dueOf c (s.retryDue c) s.schedule := by
  unfold State.enterRetryWait
  rw [State.queueProgressIfAsked_schedule]
  rfl

/-! ## The lists but for one context -/

/-- The waiting list `w` and the schedule `q` are exact for every context but `c`, which stands on neither. -/
structure State.ListsBut (s : State) (c : CtxId) (w : Waiting) (q : List CtxId) : Prop where
  urgentNodup : w.urgent.Nodup
  routineNodup : w.routine.Nodup
  scheduleNodup : q.Nodup
  offUrgent : c ∉ w.urgent
  offRoutine : c ∉ w.routine
  offSchedule : c ∉ q
  urgent : ∀ d, d ≠ c → (d ∈ w.urgent ↔ (s.ctx d).state = .pending ∧ (s.ctx d).origin = .urgent)
  routine : ∀ d, d ≠ c → (d ∈ w.routine ↔ (s.ctx d).state = .pending ∧ (s.ctx d).origin = .routine)
  schedule : ∀ d, d ≠ c → (d ∈ q ↔ (s.ctx d).state = .retryWait)
  due : ∀ d, d ≠ c → ((s.ctx d).due.isSome = true ↔ (s.ctx d).state = .retryWait)
  sorted : q.Pairwise fun a b => s.dueOf a ≤ s.dueOf b

theorem State.ListsExact.but {s : State} (h : s.ListsExact) (c : CtxId) :
    s.ListsBut c (s.waiting.remove c) (s.schedule.filter fun d => decide (d ≠ c)) := by
  obtain ⟨⟨urgentNodup, routineNodup, urgent, routine⟩, scheduleNodup, schedule, due, sorted⟩ := h
  refine ⟨urgentNodup.filter _, routineNodup.filter _, scheduleNodup.filter _, by simp [Waiting.remove],
    by simp [Waiting.remove], by simp, fun d e => ?_, fun d e => ?_, fun d e => ?_, fun d _ => due d, sorted.filter _⟩
  · simp [Waiting.remove, e, urgent d]
  · simp [Waiting.remove, e, routine d]
  · simp [e, schedule d]

theorem State.dueOf_congr {s t : State} {d : CtxId} (h : t.ctx d = s.ctx d) : t.dueOf d = s.dueOf d := by
  unfold State.dueOf; rw [h]

theorem State.ListsBut.congr {s t : State} {c : CtxId} {w : Waiting} {q : List CtxId} (h : s.ListsBut c w q)
    (others : s.OtherCtxs t c) : t.ListsBut c w q where
  urgentNodup := h.urgentNodup
  routineNodup := h.routineNodup
  scheduleNodup := h.scheduleNodup
  offUrgent := h.offUrgent
  offRoutine := h.offRoutine
  offSchedule := h.offSchedule
  urgent d e := by rw [others d e]; exact h.urgent d e
  routine d e := by rw [others d e]; exact h.routine d e
  schedule d e := by rw [others d e]; exact h.schedule d e
  due d e := by rw [others d e]; exact h.due d e
  sorted := by
    refine h.sorted.imp_of_mem fun {a b} ha hb le => ?_
    have away : ∀ {d}, d ∈ q → d ≠ c := fun mem e => h.offSchedule (e ▸ mem)
    rwa [State.dueOf_congr (others a (away ha)), State.dueOf_congr (others b (away hb))]

/-- A context that does not wait stands on no list (R43, R108). -/
theorem State.ListsExact.remove_of_not_pending {s : State} (h : s.ListsExact) {c : CtxId}
    (state : (s.ctx c).state ≠ .pending) : s.waiting.remove c = s.waiting := by
  obtain ⟨⟨-, -, urgent, routine⟩, -⟩ := h
  have off : c ∉ s.waiting.urgent ∧ c ∉ s.waiting.routine :=
    ⟨fun k => state ((urgent c).mp k).1, fun k => state ((routine c).mp k).1⟩
  have keeps : ∀ {q : List CtxId}, c ∉ q → q.filter (fun d => decide (d ≠ c)) = q := fun k =>
    List.filter_eq_self.mpr fun d mem => decide_eq_true fun e => k (e ▸ mem)
  unfold Waiting.remove
  rw [keeps off.1, keeps off.2]

theorem State.ListsExact.filter_of_not_retrying {s : State} (h : s.ListsExact) {c : CtxId}
    (state : (s.ctx c).state ≠ .retryWait) : s.schedule.filter (fun d => decide (d ≠ c)) = s.schedule := by
  obtain ⟨-, -, schedule, -⟩ := h
  exact List.filter_eq_self.mpr fun d mem => decide_eq_true fun e => state ((schedule c).mp (e ▸ mem))

/-- Context `c` waits on no list. -/
theorem State.ListsBut.off {s : State} {c : CtxId} (h : s.ListsBut c s.waiting s.schedule)
    (pending : (s.ctx c).state ≠ .pending) (retrying : (s.ctx c).state ≠ .retryWait) (due : (s.ctx c).due = none) :
    s.ListsExact := by
  refine ⟨⟨h.urgentNodup, h.routineNodup, fun d => ?_, fun d => ?_⟩, h.scheduleNodup, fun d => ?_, fun d => ?_, h.sorted⟩ <;>
    by_cases e : d = c
  · subst e; simp [h.offUrgent, pending]
  · exact h.urgent d e
  · subst e; simp [h.offRoutine, pending]
  · exact h.routine d e
  · subst e; simp [h.offSchedule, retrying]
  · exact h.schedule d e
  · subst e; simp [due, retrying]
  · exact h.due d e

/-- Context `c` joins its part of the waiting list, at its head or its tail (R44). -/
theorem State.ListsBut.joins {s : State} {c : CtxId} {w : Waiting} (h : s.ListsBut c w s.schedule)
    (state : (s.ctx c).state = .pending) (due : (s.ctx c).due = none)
    (waiting : s.waiting = w.joinTail (s.ctx c).origin c ∨ s.waiting = w.joinHead (s.ctx c).origin c) : s.ListsExact := by
  have part : ∀ {p q : List CtxId} (o : OrderRing), p.Nodup → c ∉ p →
      (∀ d, d ≠ c → (d ∈ p ↔ (s.ctx d).state = .pending ∧ (s.ctx d).origin = o)) →
      ((s.ctx c).origin = o ∧ (q = p ++ [c] ∨ q = c :: p)) ∨ ((s.ctx c).origin ≠ o ∧ q = p) →
      q.Nodup ∧ ∀ d, d ∈ q ↔ (s.ctx d).state = .pending ∧ (s.ctx d).origin = o := by
    intro p q o nodup off mem join
    refine ⟨?_, fun d => ?_⟩
    · rcases join with ⟨-, rfl | rfl⟩ | ⟨-, rfl⟩
      · exact List.nodup_append.mpr ⟨nodup, List.nodup_singleton c, fun a ha b hb => by
          rw [List.mem_singleton.mp hb]; rintro rfl; exact off ha⟩
      · exact List.nodup_cons.mpr ⟨off, nodup⟩
      · exact nodup
    · by_cases e : d = c
      · subst e
        rcases join with ⟨origin, rfl | rfl⟩ | ⟨origin, rfl⟩
        · simp [state, origin]
        · simp [state, origin]
        · simp [off, origin]
      · rw [← mem d e]
        rcases join with ⟨-, rfl | rfl⟩ | ⟨-, rfl⟩ <;> simp [e]
  have urgent := part (q := s.waiting.urgent) .urgent h.urgentNodup h.offUrgent h.urgent (by
    rcases waiting with k | k <;> rw [k] <;> cases (s.ctx c).origin <;> simp [Waiting.joinTail, Waiting.joinHead])
  have routine := part (q := s.waiting.routine) .routine h.routineNodup h.offRoutine h.routine (by
    rcases waiting with k | k <;> rw [k] <;> cases (s.ctx c).origin <;> simp [Waiting.joinTail, Waiting.joinHead])
  refine ⟨⟨urgent.1, routine.1, urgent.2, routine.2⟩, h.scheduleNodup, fun d => ?_, fun d => ?_, h.sorted⟩ <;>
    by_cases e : d = c
  · subst e; simp [h.offSchedule, state]
  · exact h.schedule d e
  · subst e; simp [due, state]
  · exact h.due d e

theorem mem_scheduleInsert {dueOf : CtxId → Nat} {c d : CtxId} {due : Nat} {q : List CtxId} :
    d ∈ scheduleInsert dueOf c due q ↔ d = c ∨ d ∈ q := by
  induction q with
  | nil => simp [scheduleInsert]
  | cons e q ih =>
    unfold scheduleInsert
    split
    · simp [ih]; tauto
    · simp

theorem scheduleInsert_nodup {dueOf : CtxId → Nat} {c : CtxId} {due : Nat} {q : List CtxId} (nodup : q.Nodup)
    (off : c ∉ q) : (scheduleInsert dueOf c due q).Nodup := by
  induction q with
  | nil => exact List.nodup_singleton c
  | cons e q ih =>
    obtain ⟨fresh, nodup⟩ := List.nodup_cons.mp nodup
    obtain ⟨ne, off⟩ := List.ne_and_not_mem_of_not_mem_cons off
    unfold scheduleInsert
    split
    · refine List.nodup_cons.mpr ⟨fun k => ?_, ih nodup off⟩
      exact (mem_scheduleInsert.mp k).elim (fun h => ne h.symm) fresh
    · exact List.nodup_cons.mpr ⟨by simp [ne, off], List.nodup_cons.mpr ⟨fresh, nodup⟩⟩

/-- The schedule stays in due order (R108). -/
theorem scheduleInsert_sorted {dueOf : CtxId → Nat} {c : CtxId} {due : Nat} (own : dueOf c = due) {q : List CtxId}
    (sorted : q.Pairwise fun a b => dueOf a ≤ dueOf b) :
    (scheduleInsert dueOf c due q).Pairwise fun a b => dueOf a ≤ dueOf b := by
  induction q with
  | nil => exact List.pairwise_singleton _ c
  | cons e q ih =>
    obtain ⟨first, sorted⟩ := List.pairwise_cons.mp sorted
    unfold scheduleInsert
    split
    · rename_i le
      refine List.pairwise_cons.mpr ⟨fun d k => ?_, ih sorted⟩
      rcases mem_scheduleInsert.mp k with rfl | k
      · omega
      · exact first d k
    · rename_i lt
      refine List.pairwise_cons.mpr ⟨fun d k => ?_, List.pairwise_cons.mpr ⟨first, sorted⟩⟩
      rcases List.mem_cons.mp k with rfl | k
      · omega
      · have := first d k; omega

/-- Context `c` enters the schedule at its due uptime (R107, R108). -/
theorem State.ListsBut.retries {s : State} {c : CtxId} {q : List CtxId} {due : Nat} {dueOf : CtxId → Nat}
    (h : s.ListsBut c s.waiting q) (state : (s.ctx c).state = .retryWait) (own : (s.ctx c).due = some due)
    (same : ∀ d, s.dueOf d = dueOf d) (schedule : s.schedule = scheduleInsert dueOf c due q) : s.ListsExact := by
  obtain rfl : s.dueOf = dueOf := funext same
  have ownDue : s.dueOf c = due := by unfold State.dueOf; rw [own]; rfl
  refine ⟨⟨h.urgentNodup, h.routineNodup, fun d => ?_, fun d => ?_⟩, ?_, fun d => ?_, fun d => ?_, ?_⟩
  · by_cases e : d = c
    · subst e; simp [h.offUrgent, state]
    · exact h.urgent d e
  · by_cases e : d = c
    · subst e; simp [h.offRoutine, state]
    · exact h.routine d e
  · rw [schedule]; exact scheduleInsert_nodup h.scheduleNodup h.offSchedule
  · rw [schedule, mem_scheduleInsert]
    by_cases e : d = c
    · subst e; simp [state]
    · simp [e, h.schedule d e]
  · by_cases e : d = c
    · subst e; simp [own, state]
    · exact h.due d e
  · rw [schedule]; exact scheduleInsert_sorted ownDue h.sorted

/-! ## The lists act by act -/

/-- What the lists and the tags read of a context is as it was. -/
structure Context.Listed (x y : Context) : Prop where
  state : y.state = x.state
  tag : y.tag = x.tag
  origin : y.origin = x.origin
  due : y.due = x.due

@[refl] theorem Context.Listed.refl (x : Context) : x.Listed x := ⟨rfl, rfl, rfl, rfl⟩

theorem Context.Notes.listed {x y : Context} (h : x.Notes y) : x.Listed y := ⟨h.state, h.tag, h.origin, h.due⟩

theorem State.modCtx_listed {s : State} {c : CtxId} {f : Context → Context} (h : (s.ctx c).Listed (f (s.ctx c)))
    (d : CtxId) : (s.ctx d).Listed ((s.modCtx c f).ctx d) := by
  rw [State.modCtx_ctx]
  split
  · rename_i e; subst e; exact h
  · exact .refl _

theorem State.ListsExact.of_listed {s t : State} (h : s.ListsExact) (listed : ∀ d, (s.ctx d).Listed (t.ctx d))
    (waiting : t.waiting = s.waiting) (schedule : t.schedule = s.schedule) : t.ListsExact := by
  have due : t.dueOf = s.dueOf := funext fun d => by unfold State.dueOf; rw [(listed d).due]
  unfold State.ListsExact State.WaitingExact State.ScheduleExact at h ⊢
  simp only [waiting, schedule, due, (listed _).state, (listed _).origin, (listed _).due]
  exact h

theorem State.ListsExact.ended {s t : State} (h : s.ListsExact) (c : CtxId) (others : s.OtherCtxs t c)
    (waiting : t.waiting = s.waiting.remove c) (schedule : t.schedule = s.schedule.filter fun d => decide (d ≠ c))
    (state : (t.ctx c).state = .ended) (due : (t.ctx c).due = none) : t.ListsExact := by
  have but := (h.but c).congr others
  rw [← waiting, ← schedule] at but
  exact but.off (by simp [state]) (by simp [state]) due

/-- The ending step takes its context off whatever list it is on (R11). -/
theorem State.ListsExact.endContext {s : State} (h : s.ListsExact) (c : CtxId) (o : CallOutcome) :
    (s.endContext c o).ListsExact := by
  refine h.ended c (s.endContext_others c o) ?_ ?_ ?_ ?_
  · rw [State.endContext_waiting]
    split
    · rfl
    · rename_i k; exact (h.remove_of_not_pending k).symm
  · rw [State.endContext_schedule]
    split
    · rfl
    · rename_i k; exact (h.filter_of_not_retrying k).symm
  · rw [State.endContext_ctx_same, Context.afterEnd_state]
  · rw [State.endContext_ctx_same, Context.afterEnd_due]

theorem State.ListsExact.sweep {s : State} (h : s.ListsExact) : s.sweep.ListsExact :=
  State.sweep_induct (P := State.ListsExact) (fun _ c _ k => k.endContext c _) h

/-- A context that is off the lists enters the retry wait (R107). -/
theorem State.ListsExact.enterRetryWait {s : State} (h : s.ListsExact) {c : CtxId} (l : LineId) (o : CallOutcome)
    (pending : (s.ctx c).state ≠ .pending) (retrying : (s.ctx c).state ≠ .retryWait) :
    (s.enterRetryWait c l o).ListsExact := by
  have but := (h.but c).congr (s.enterRetryWait_others c l o)
  have notes := s.enterRetryWait_notes c l o
  rw [h.remove_of_not_pending pending, h.filter_of_not_retrying retrying, ← (s.enterRetryWait_fields c l o).2.2.2.1] at but
  refine but.retries notes.state notes.due (fun d => ?_) (s.enterRetryWait_schedule c l o)
  by_cases e : d = c
  · subst e; unfold State.dueOf; rw [notes.due, State.modCtx_ctx_same]
  · exact State.dueOf_congr ((s.enterRetryWait_others c l o d e).trans (s.modCtx_others c _ d e).symm)

theorem State.ListsExact.judgeFailure {s : State} (h : s.ListsExact) {c : CtxId} (l : LineId) (o : CallOutcome)
    (onLine : (s.ctx c).state = .onLine) : (s.judgeFailure c l o).ListsExact := by
  rcases s.judgeFailure_cases c l o with ⟨k, -⟩ | ⟨k, -⟩ | ⟨k, -⟩ <;> rw [k]
  · exact h.enterRetryWait l o (by rw [onLine]; exact CtxState.noConfusion) (by rw [onLine]; exact CtxState.noConfusion)
  · exact h.endContext c _
  · exact h.endContext c _

theorem State.detach_listed (s : State) (c : CtxId) (o : CallOutcome) (d : CtxId) :
    (s.ctx d).Listed ((s.detach c o).ctx d) := State.modCtx_listed (c := c) ⟨rfl, rfl, rfl, rfl⟩ d

theorem State.ListsExact.endOnLine {s : State} (h : s.ListsExact) (l : LineId) (o : CallOutcome) :
    (s.endOnLine l o).ListsExact := by
  have cleared : (s.clearLine l).ListsExact := h.of_listed (fun d => by rw [State.clearLine_ctx]) (by simp) (by simp)
  have detached : ∀ c, ((s.clearLine l).detach c o).ListsExact := fun c => cleared.of_listed (State.detach_listed _ c o) rfl rfl
  rcases s.endOnLine_cases l o with ⟨-, k⟩ | ⟨c, -, onLine, ⟨-, -, k⟩ | ⟨-, k⟩⟩ <;> rw [k]
  · exact cleared
  · refine (detached c).judgeFailure l o ?_
    rw [(State.detach_listed _ c o c).state, State.clearLine_ctx, onLine]
  · exact (detached c).endContext c o

theorem State.ListsExact.faultLine {s : State} (h : s.ListsExact) (l : LineId) : (s.faultLine l).ListsExact := by
  have queued : ∀ u : State, u.ListsExact → (u.queueUnsolicited (.lineFault l)).ListsExact := fun u k =>
    k.of_listed (fun d => by rw [State.queueUnsolicited_ctx]) (by simp) (by simp)
  have faulted : ((s.modLine l Line.toFault).setMeter l none).ListsExact := h
  unfold State.faultLine
  dsimp only
  refine queued _ ?_
  split
  · split
    · exact (faulted.of_listed (State.detach_listed _ _ _) rfl rfl).endContext _ _
    · exact faulted
  · exact faulted

/-- Glare puts the seized line's context back at the head of its part, or ends it (R51, R13). -/
theorem State.ListsExact.glareReturn {s : State} (h : s.ListsExact) {c : CtxId} (onLine : (s.ctx c).state = .onLine) :
    (s.glareReturn c).ListsExact := by
  have given : (s.modCtx c fun x =>
      { x with currentLine := none, attempts := x.attempts - 1, lastLine := x.prevLine }).ListsExact :=
    h.of_listed (State.modCtx_listed ⟨rfl, rfl, rfl, rfl⟩) rfl rfl
  unfold State.glareReturn
  dsimp only
  split
  · exact given.endContext _ _
  · obtain ⟨-, -, -, due, -⟩ := h
    have noDue : (s.ctx c).due = none := Option.not_isSome_iff_eq_none.mp fun k => by simpa [onLine] using (due c).mp k
    have but := given.but c
    rw [given.remove_of_not_pending (by simp [onLine]), given.filter_of_not_retrying (by simp [onLine])] at but
    refine State.ListsBut.joins (c := c) (w := s.waiting) (but.congr fun d e => ?_) ?_ ?_ (.inr ?_)
    · rw [State.setWaiting_ctx, State.modCtx_ctx_other _ _ _ _ e]
    · simp
    · simp [noDue]
    · simp

theorem State.ListsExact.glareTurn {s : State} (h : s.ListsExact) (l : LineId) : (s.glareTurn l).ListsExact := by
  have rings : (s.modLine l Line.toGlare).ListsExact := h
  unfold State.glareTurn
  split
  · split
    · rename_i onLine; exact rings.glareReturn onLine
    · exact rings
  · exact rings

/-- A context that was on no list goes, or comes back, to a state in which it is on none. -/
theorem State.ListsExact.replaced {s t : State} (h : s.ListsExact) {c : CtxId}
    (before : (s.ctx c).state ≠ .pending ∧ (s.ctx c).state ≠ .retryWait) (others : s.OtherCtxs t c)
    (waiting : t.waiting = s.waiting) (schedule : t.schedule = s.schedule)
    (after : (t.ctx c).state ≠ .pending ∧ (t.ctx c).state ≠ .retryWait) (due : (t.ctx c).due = none) : t.ListsExact := by
  have but := (h.but c).congr others
  rw [h.remove_of_not_pending before.1, h.filter_of_not_retrying before.2, ← waiting, ← schedule] at but
  exact but.off after.1 after.2 due

theorem State.ListsExact.pending_of_waits {s : State} (h : s.ListsExact) {c : CtxId} (waits : c ∈ s.waiting.all) :
    (s.ctx c).state = .pending := by
  obtain ⟨⟨-, -, urgent, routine⟩, -⟩ := h
  exact (List.mem_append.mp waits).elim (fun k => ((urgent c).mp k).1) fun k => ((routine c).mp k).1

theorem State.ListsExact.due_of_not_retrying {s : State} (h : s.ListsExact) {c : CtxId} (state : (s.ctx c).state ≠ .retryWait) :
    (s.ctx c).due = none := by
  obtain ⟨-, -, -, due, -⟩ := h
  exact Option.not_isSome_iff_eq_none.mp fun k => state ((due c).mp k)

theorem State.dueHead_mem {s : State} {c : CtxId} (head : s.dueHead = some c) : c ∈ s.schedule := by
  unfold State.dueHead at head
  split at head
  · cases head
  · rename_i e rest k
    split at head
    · cases head; rw [k]; exact List.mem_cons_self
    · cases head

theorem State.ListsExact.of_dueHead {s : State} (h : s.ListsExact) {c : CtxId} (head : s.dueHead = some c) :
    (s.ctx c).state = .retryWait := by
  obtain ⟨-, -, schedule, -⟩ := h
  exact (schedule c).mp (State.dueHead_mem head)

theorem State.unschedule_others (s : State) (c : CtxId) (f : Context → Context) :
    s.OtherCtxs ((s.unschedule c).modCtx c f) c := State.modCtx_others (s.unschedule c) c f

theorem State.resetBlocks_ctx (s : State) (cause : ResetCause) (c : CtxId) :
    (s.resetBlocks cause).ctx c = Context.cleared := by
  show (Vector.replicate 48 Context.cleared)[c] = _
  simp

theorem State.Act.listsExact {s t : State} (act : State.Act R s t) (h : s.ListsExact) : t.ListsExact := by
  cases act with
  | notes c f notes => exact h.of_listed (State.modCtx_listed notes.listed) rfl rfl
  | ends c o _ => exact h.endContext c o
  | sweep => exact h.sweep
  | endsOnLine l o => exact h.endOnLine l o
  | faults l _ => exact h.faultLine l
  | grant c l waits _ =>
    have onLine := (s.grant_notes c l).state
    have pending := h.pending_of_waits waits
    have but := (h.but c).congr (s.grant_others c l)
    have retrying : (s.ctx c).state ≠ .retryWait := by rw [pending]; exact CtxState.noConfusion
    rw [h.filter_of_not_retrying retrying, ← s.grant_waiting c l, ← s.grant_schedule c l] at but
    exact but.off (by rw [onLine]; exact CtxState.noConfusion) (by rw [onLine]; exact CtxState.noConfusion)
      ((s.grant_notes c l).due.trans (h.due_of_not_retrying retrying))
  | glare l _ => exact h.glareTurn l
  | place c x free state due _ _ _ =>
    have but := h.but c
    rw [h.remove_of_not_pending (by rw [free]; exact CtxState.noConfusion),
      h.filter_of_not_retrying (by rw [free]; exact CtxState.noConfusion)] at but
    refine State.ListsBut.joins (c := c) (w := s.waiting) (but.congr fun d e => ?_) ?_ ?_ (.inl ?_)
    · rw [State.setWaiting_ctx, State.modCtx_ctx_other _ _ _ _ e]
    · simp [state]
    · simp [due]
    · simp
  | refuses c x o free state _ _ =>
    refine h.ended c ((s.modCtx_others c _).trans (State.endContext_others _ c o)) ?_ ?_ ?_ ?_
    · rw [State.endContext_waiting, State.modCtx_ctx_same, h.remove_of_not_pending (by simp [free])]
      simp [state]
    · rw [State.endContext_schedule, State.modCtx_ctx_same, h.filter_of_not_retrying (by simp [free])]
      simp [state]
    · rw [State.endContext_ctx_same, Context.afterEnd_state]
    · rw [State.endContext_ctx_same, Context.afterEnd_due]
  | accepts c l x free state current due =>
    exact h.replaced (c := c) (by simp [free])
      (fun d e => by rw [State.modLine_ctx, State.modCtx_ctx_other _ _ _ _ e]) rfl rfl (by simp [state]) (by simp [due])
  | due c head =>
    have retrying := h.of_dueHead head
    have but := h.but c
    rw [h.remove_of_not_pending (by rw [retrying]; exact CtxState.noConfusion)] at but
    refine State.ListsBut.joins (c := c) (w := s.waiting) (but.congr fun d e => ?_) ?_ ?_ (.inl ?_)
    · rw [State.setWaiting_ctx]; exact s.unschedule_others c _ d e
    · simp
    · simp
    · simp [State.unschedule]
  | dueLost c head =>
    have retrying := h.of_dueHead head
    refine h.ended c ((s.unschedule_others c _).trans (State.endContext_others _ c _)) ?_ ?_ ?_ ?_
    · rw [State.endContext_waiting, State.modCtx_ctx_same, h.remove_of_not_pending (by simp [retrying])]
      simp [State.unschedule, retrying]
    · rw [State.endContext_schedule, State.modCtx_ctx_same]
      simp [State.unschedule, retrying, List.filter_filter]
    · rw [State.endContext_ctx_same, Context.afterEnd_state]
    · rw [State.endContext_ctx_same, Context.afterEnd_due]
  | posted e rest _ =>
    rcases (s.modReport fun w => { w with outbox := rest }).clearPosted_cases e.body with k | ⟨c, -, ended, k⟩ <;> rw [k]
    · exact h
    · have ended : (s.ctx c).state = .ended := ended
      exact h.replaced (c := c) (by simp [ended]) (fun d e => State.modCtx_ctx_other _ c d _ e) rfl rfl (by simp [Context.cleared])
        (by simp [Context.cleared])
  | resets cause =>
    have cleared := s.resetBlocks_ctx cause
    refine ⟨⟨List.nodup_nil, List.nodup_nil, fun c => ?_, fun c => ?_⟩, List.nodup_nil, fun c => ?_, fun c => ?_, .nil⟩ <;>
      rw [cleared c] <;> simp [State.resetBlocks, Context.cleared]
  | _ => exact h

/-! ## The tags -/

/-- Every active context was active and keeps its tag. -/
def State.FewerActive (s t : State) : Prop :=
  ∀ d, (t.ctx d).state.isActive = true → (s.ctx d).state.isActive = true ∧ (t.ctx d).tag = (s.ctx d).tag

theorem State.FewerActive.refl (s : State) : s.FewerActive s := fun _ h => ⟨h, rfl⟩

theorem State.FewerActive.trans {s t u : State} (h : s.FewerActive t) (k : t.FewerActive u) : s.FewerActive u := by
  intro d active
  obtain ⟨activeT, tagT⟩ := k d active
  obtain ⟨activeS, tagS⟩ := h d activeT
  exact ⟨activeS, tagT.trans tagS⟩

theorem State.FewerActive.of_listed {s t : State} (h : ∀ d, (s.ctx d).Listed (t.ctx d)) : s.FewerActive t :=
  fun d active => ⟨(h d).state ▸ active, (h d).tag⟩

theorem State.FewerActive.of_other {s t : State} {c : CtxId} (others : s.OtherCtxs t c)
    (own : (t.ctx c).state.isActive = true → (s.ctx c).state.isActive = true ∧ (t.ctx c).tag = (s.ctx c).tag) :
    s.FewerActive t := by
  intro d active
  by_cases e : d = c
  · subst e; exact own active
  · rw [others d e] at active ⊢; exact ⟨active, rfl⟩

theorem State.TagsUnique.of_fewerActive {s t : State} (h : s.TagsUnique) (k : s.FewerActive t) : t.TagsUnique := by
  intro c d activeC activeD same
  obtain ⟨activeC, tagC⟩ := k c activeC
  obtain ⟨activeD, tagD⟩ := k d activeD
  exact h c d activeC activeD (by rw [← tagC, ← tagD, same])

/-- A context becomes active with a tag that no active one carries (R15). -/
theorem State.TagsUnique.taken {s t : State} (h : s.TagsUnique) {c : CtxId} (others : s.OtherCtxs t c)
    (unused : s.TagUnused (t.ctx c).tag) : t.TagsUnique := by
  have differs : ∀ d, d ≠ c → (t.ctx d).state.isActive = true → (t.ctx d).tag ≠ (t.ctx c).tag := by
    intro d e active
    rw [others d e] at active ⊢
    exact unused d active
  intro a b activeA activeB same
  by_cases ea : a = c
  · by_cases eb : b = c
    · rw [ea, eb]
    · subst ea; exact absurd same.symm (differs b eb activeB)
  · by_cases eb : b = c
    · subst eb; exact absurd same (differs a ea activeA)
    · rw [others a ea, others b eb] at same
      rw [others a ea] at activeA
      rw [others b eb] at activeB
      exact h a b activeA activeB same

theorem State.endContext_fewerActive (s : State) (c : CtxId) (o : CallOutcome) : s.FewerActive (s.endContext c o) :=
  .of_other (s.endContext_others c o) fun active => by
    rw [State.endContext_ctx_same, Context.afterEnd_state] at active; cases active

theorem State.judgeFailure_fewerActive {s : State} {c : CtxId} (l : LineId) (o : CallOutcome)
    (onLine : (s.ctx c).state = .onLine) : s.FewerActive (s.judgeFailure c l o) := by
  rcases s.judgeFailure_cases c l o with ⟨k, -⟩ | ⟨k, -⟩ | ⟨k, -⟩ <;> rw [k]
  · exact .of_other (s.enterRetryWait_others c l o) fun _ => ⟨by rw [onLine]; rfl, (s.enterRetryWait_notes c l o).tag⟩
  · exact s.endContext_fewerActive c _
  · exact s.endContext_fewerActive c _

theorem State.clearLine_detach_listed (s : State) (l : LineId) (c : CtxId) (o : CallOutcome) (d : CtxId) :
    (s.ctx d).Listed (((s.clearLine l).detach c o).ctx d) := by
  rw [← State.clearLine_ctx s l]; exact State.detach_listed _ c o d

theorem State.endOnLine_fewerActive (s : State) (l : LineId) (o : CallOutcome) : s.FewerActive (s.endOnLine l o) := by
  have detached : ∀ c, s.FewerActive ((s.clearLine l).detach c o) := fun c =>
    .of_listed (s.clearLine_detach_listed l c o)
  rcases s.endOnLine_cases l o with ⟨-, k⟩ | ⟨c, -, onLine, ⟨-, -, k⟩ | ⟨-, k⟩⟩ <;> rw [k]
  · exact .of_listed fun d => by rw [State.clearLine_ctx]
  · refine (detached c).trans (State.judgeFailure_fewerActive l o ?_)
    rw [(s.clearLine_detach_listed l c o c).state, onLine]
  · exact (detached c).trans (State.endContext_fewerActive _ c o)

theorem State.faultLine_fewerActive (s : State) (l : LineId) : s.FewerActive (s.faultLine l) := by
  have queued : ∀ u : State, u.FewerActive (u.queueUnsolicited (.lineFault l)) := fun u =>
    .of_listed fun d => by rw [State.queueUnsolicited_ctx]
  have faulted : s.FewerActive ((s.modLine l Line.toFault).setMeter l none) := .refl s
  unfold State.faultLine
  dsimp only
  refine .trans ?_ (queued _)
  split
  · split
    · exact (faulted.trans (.of_listed (State.detach_listed _ _ _))).trans (State.endContext_fewerActive _ _ _)
    · exact faulted
  · exact faulted

theorem State.glareTurn_fewerActive (s : State) (l : LineId) : s.FewerActive (s.glareTurn l) := by
  have rings : s.FewerActive (s.modLine l Line.toGlare) := .refl s
  unfold State.glareTurn
  split
  · split
    · rename_i c _ onLine
      refine rings.trans ?_
      unfold State.glareReturn
      dsimp only
      split
      · exact .trans (.of_listed (State.modCtx_listed ⟨rfl, rfl, rfl, rfl⟩)) (State.endContext_fewerActive _ _ _)
      · refine .of_other (c := c) (fun d e => ?_) fun _ => ⟨?_, ?_⟩
        · rw [State.setWaiting_ctx, State.modCtx_ctx_other _ _ _ _ e, State.modCtx_ctx_other _ _ _ _ e]
        · rw [State.modLine_ctx, onLine]; rfl
        · simp
    · exact rings
  · exact rings

theorem State.Act.tagsUnique {s t : State} (act : State.Act R s t) (lists : s.ListsExact) (h : s.TagsUnique) :
    t.TagsUnique := by
  cases act with
  | notes c f notes => exact h.of_fewerActive (.of_listed (State.modCtx_listed notes.listed))
  | ends c o _ => exact h.of_fewerActive (s.endContext_fewerActive c o)
  | sweep =>
    exact h.of_fewerActive (State.sweep_induct (P := s.FewerActive)
      (fun u c _ k => k.trans (u.endContext_fewerActive c _)) (.refl s))
  | endsOnLine l o => exact h.of_fewerActive (s.endOnLine_fewerActive l o)
  | faults l _ => exact h.of_fewerActive (s.faultLine_fewerActive l)
  | grant c l waits _ =>
    refine h.of_fewerActive (.of_other (s.grant_others c l) fun _ => ⟨?_, (s.grant_notes c l).tag⟩)
    rw [lists.pending_of_waits waits]; rfl
  | glare l _ => exact h.of_fewerActive (s.glareTurn_fewerActive l)
  | place c x free state due _ _ tag =>
    refine h.taken (c := c) (fun d e => ?_) ?_
    · rw [State.setWaiting_ctx, State.modCtx_ctx_other _ _ _ _ e]
    · simpa using tag
  | refuses c x o free state _ _ =>
    refine h.of_fewerActive (.of_other ((s.modCtx_others c _).trans (State.endContext_others _ c o)) fun active => ?_)
    rw [State.endContext_ctx_same, Context.afterEnd_state] at active; cases active
  | accepts c l x free state current due _ _ tag =>
    refine h.taken (c := c) (fun d e => ?_) ?_
    · rw [State.modLine_ctx, State.modCtx_ctx_other _ _ _ _ e]
    · simpa using tag
  | due c head =>
    refine h.of_fewerActive (.of_other (c := c) (fun d e => ?_) fun _ => ⟨?_, ?_⟩)
    · rw [State.setWaiting_ctx]; exact s.unschedule_others c _ d e
    · rw [lists.of_dueHead head]; rfl
    · simp [State.unschedule]
  | dueLost c head =>
    refine h.of_fewerActive (.of_other ((s.unschedule_others c _).trans (State.endContext_others _ c _)) fun active => ?_)
    rw [State.endContext_ctx_same, Context.afterEnd_state] at active; cases active
  | posted e rest _ =>
    rcases (s.modReport fun w => { w with outbox := rest }).clearPosted_cases e.body with k | ⟨c, -, ended, k⟩ <;> rw [k]
    · exact h
    · refine h.of_fewerActive (.of_other (c := c) (fun d e => State.modCtx_ctx_other _ c d _ e) fun active => ?_)
      rw [State.modCtx_ctx_same] at active; cases active
  | resets cause =>
    intro c d active
    rw [State.resetBlocks_ctx] at active; cases active
  | _ => exact h

/-- Settles O6: every act keeps the lists exact, and while they are, the tags unique. -/
theorem waitingListsStayExact : Obligations.WaitingListsStayExact :=
  ⟨fun _ _ h k => State.Acts.keeps State.Act.listsExact (step_acts k) h, fun _ _ lists h k =>
    (State.Acts.keeps (P := fun s => s.ListsExact ∧ s.TagsUnique)
      (fun act h => ⟨act.listsExact h.1, act.tagsUnique h.1 h.2⟩) (step_acts k) ⟨lists, h⟩).2⟩

end Sys2Proof.Machine
end

section
/-! PROOF. Invariants act by act: the outbox; the attempts and snapshots. -/

namespace Sys2Proof.Machine

variable {R : Retained → Retained → Prop}

/-! ## The outbox -/

theorem CtxState.ended_of_active {x : CtxState} (h : x.isActive = true) : x ≠ .ended := by
  rintro rfl; cases h

/-- The same outbox, and the same contexts ENDED. -/
theorem State.OutboxExact.of_states {s t : State} (h : s.OutboxExact) (outbox : t.report.outbox = s.report.outbox)
    (states : ∀ d, (t.ctx d).state = .ended ↔ (s.ctx d).state = .ended) : t.OutboxExact := by
  unfold State.OutboxExact State.refsTo at h ⊢
  simp only [outbox, states]
  exact h

theorem State.OutboxExact.of_listed {s t : State} (h : s.OutboxExact) (outbox : t.report.outbox = s.report.outbox)
    (listed : ∀ d, (s.ctx d).Listed (t.ctx d)) : t.OutboxExact :=
  h.of_states outbox fun d => by rw [(listed d).state]

theorem State.OutboxExact.modCtx {s : State} {c : CtxId} {f : Context → Context} (h : s.OutboxExact)
    (listed : (s.ctx c).Listed (f (s.ctx c))) : (s.modCtx c f).OutboxExact := h.of_listed rfl (State.modCtx_listed listed)

theorem State.OutboxExact.detach {s : State} (h : s.OutboxExact) (c : CtxId) (o : CallOutcome) :
    (s.detach c o).OutboxExact := h.modCtx ⟨rfl, rfl, rfl, rfl⟩

/-- A context that neither was nor is ENDED changes no reference. -/
theorem State.OutboxExact.of_other {s t : State} {c : CtxId} (h : s.OutboxExact)
    (outbox : t.report.outbox = s.report.outbox) (others : s.OtherCtxs t c) (before : (s.ctx c).state ≠ .ended)
    (after : (t.ctx c).state ≠ .ended) : t.OutboxExact := by
  refine h.of_states outbox fun d => ?_
  by_cases e : d = c
  · subst e; simp [before, after]
  · rw [others d e]

/-- A report in a free place of its quota (R146). -/
theorem State.OutboxExact.queued {s : State} {b : EntryBody} {u : Bool} (h : s.OutboxExact)
    (room : s.RoomFor { body := b, urgent := u }) : (s.queue b u).OutboxExact := by
  obtain ⟨done, progress, unsolicited, refs⟩ := h
  obtain ⟨noRef, roomDone, roomProgress, roomUnsolicited⟩ := room
  have outbox : (s.queue b u).report.outbox = s.report.outbox ++ [{ body := b, urgent := u }] := rfl
  have within : ∀ p : OutboxEntry → Bool, s.report.outbox.countP p ≤ Config.quota →
      (p ({ body := b, urgent := u } : OutboxEntry) = true → s.report.outbox.countP p < Config.quota) →
      (s.report.outbox ++ [({ body := b, urgent := u } : OutboxEntry)]).countP p ≤ Config.quota := by
    intro p le room
    rw [List.countP_append, List.countP_singleton]
    split
    · rename_i k; have := room k; omega
    · omega
  unfold State.OutboxExact State.refsTo at *
  rw [outbox]
  refine ⟨within _ done roomDone, within _ progress roomProgress, within _ unsolicited roomUnsolicited, fun c => ?_⟩
  rw [List.countP_append, refs c, List.countP_singleton, State.queue_ctx]
  simp [noRef c]

/-- The reference to a context that has just ended (R11). -/
theorem State.OutboxExact.ended {s t : State} {c : CtxId} {u : Bool} (h : s.OutboxExact) (others : s.OtherCtxs t c)
    (before : (s.ctx c).state ≠ .ended) (after : (t.ctx c).state = .ended)
    (outbox : t.report.outbox = s.report.outbox ++ [{ body := .callEnd c, urgent := u }]) : t.OutboxExact := by
  obtain ⟨done, progress, unsolicited, refs⟩ := h
  unfold State.OutboxExact State.refsTo at *
  rw [outbox]
  have apart : ∀ p : OutboxEntry → Bool, p ({ body := .callEnd c, urgent := u } : OutboxEntry) = false →
      (s.report.outbox ++ [({ body := .callEnd c, urgent := u } : OutboxEntry)]).countP p = s.report.outbox.countP p := by
    intro p k
    rw [List.countP_append, List.countP_singleton, k]
    simp
  refine ⟨?_, ?_, ?_, fun d => ?_⟩
  · rw [apart OutboxEntry.isDone rfl]; exact done
  · rw [apart OutboxEntry.isProgress rfl]; exact progress
  · rw [apart OutboxEntry.isUnsolicited rfl]; exact unsolicited
  rw [List.countP_append, refs d, List.countP_singleton]
  by_cases e : d = c
  · subst e; simp [before, after]
  · rw [others d e]; simp [Ne.symm e]

theorem State.OutboxExact.endContext {s : State} {c : CtxId} (h : s.OutboxExact) (before : (s.ctx c).state ≠ .ended)
    (o : CallOutcome) : (s.endContext c o).OutboxExact :=
  h.ended (s.endContext_others c o) before (by rw [State.endContext_ctx_same, Context.afterEnd_state])
    (by rw [State.endContext_report])

theorem State.OutboxExact.queueProgressIfAsked {s : State} (h : s.OutboxExact) (c : CtxId) (l : LineId)
    (kind : ProgressKind) : (s.queueProgressIfAsked c l kind).OutboxExact := by
  unfold State.queueProgressIfAsked State.queueProgress
  split
  · split
    · rename_i room
      exact h.queued ⟨fun _ => EntryBody.noConfusion, fun k => Bool.noConfusion k, fun _ => room, fun k => Bool.noConfusion k⟩
    · exact h.modCtx ⟨rfl, rfl, rfl, rfl⟩
  · exact h

theorem State.OutboxExact.queueUnsolicited {s : State} (h : s.OutboxExact) (kind : UnsolicitedKind) :
    (s.queueUnsolicited kind).OutboxExact := by
  unfold State.queueUnsolicited
  split
  · rename_i room
    exact h.queued ⟨fun _ => EntryBody.noConfusion, fun k => Bool.noConfusion k, fun k => Bool.noConfusion k, fun _ => room⟩
  · exact h

theorem State.OutboxExact.judgeFailure {s : State} {c : CtxId} (h : s.OutboxExact) (l : LineId) (o : CallOutcome)
    (onLine : (s.ctx c).state = .onLine) : (s.judgeFailure c l o).OutboxExact := by
  have before : (s.ctx c).state ≠ .ended := by rw [onLine]; exact CtxState.noConfusion
  rcases s.judgeFailure_cases c l o with ⟨k, -⟩ | ⟨k, -⟩ | ⟨k, -⟩ <;> rw [k]
  · unfold State.enterRetryWait
    dsimp only
    refine State.OutboxExact.queueProgressIfAsked (h.of_other (c := c) ?_ (fun d e => ?_) before ?_) _ _ _
    · simp
    · rw [State.setSchedule_ctx, State.modCtx_ctx_other _ _ _ _ e]
    · simp
  · exact h.endContext before _
  · exact h.endContext before _

theorem State.OutboxExact.endOnLine {s : State} (h : s.OutboxExact) (l : LineId) (o : CallOutcome) :
    (s.endOnLine l o).OutboxExact := by
  have detached : ∀ c, ((s.clearLine l).detach c o).OutboxExact := fun c =>
    h.of_listed (by simp [State.detach]) (s.clearLine_detach_listed l c o)
  rcases s.endOnLine_cases l o with ⟨-, k⟩ | ⟨c, -, onLine, ending⟩
  · rw [k]; exact h.of_listed (by simp) fun d => by rw [State.clearLine_ctx]
  · have onLine' : (((s.clearLine l).detach c o).ctx c).state = .onLine := by
      rw [(s.clearLine_detach_listed l c o c).state, onLine]
    rcases ending with ⟨-, -, k⟩ | ⟨-, k⟩ <;> rw [k]
    · exact (detached c).judgeFailure l o onLine'
    · exact (detached c).endContext (by rw [onLine']; exact CtxState.noConfusion) o

theorem State.OutboxExact.faultLine {s : State} (h : s.OutboxExact) (l : LineId) : (s.faultLine l).OutboxExact := by
  have faulted : ((s.modLine l Line.toFault).setMeter l none).OutboxExact := h
  unfold State.faultLine
  dsimp only
  refine State.OutboxExact.queueUnsolicited ?_ _
  split
  · split
    · rename_i c _ onLine
      refine (faulted.detach c _).endContext ?_ _
      rw [(State.detach_listed _ c _ c).state, State.setMeter_ctx, State.modLine_ctx, onLine]
      exact CtxState.noConfusion
    · exact faulted
  · exact faulted

theorem State.OutboxExact.glareTurn {s : State} (h : s.OutboxExact) (l : LineId) : (s.glareTurn l).OutboxExact := by
  have rings : (s.modLine l Line.toGlare).OutboxExact := h
  unfold State.glareTurn
  split
  · split
    · rename_i c _ onLine
      unfold State.glareReturn
      dsimp only
      split
      · exact (rings.modCtx (c := c) ⟨rfl, rfl, rfl, rfl⟩).endContext (by simp [onLine]) _
      · refine rings.of_other (c := c) (by simp) (fun d e => ?_) (by simp [onLine]) (by simp)
        rw [State.setWaiting_ctx, State.modCtx_ctx_other _ _ _ _ e, State.modCtx_ctx_other _ _ _ _ e]
    · exact rings
  · exact rings

/-- What the sweep ends waits on the list (R52). -/
theorem State.sweep_induct_of_waits {P : State → Prop}
    (lost : ∀ (s : State) (c : CtxId), c ∈ s.waiting.all → s.maskUsable (s.ctx c).mask = false → P s →
      P (s.endContext c .noLine)) {s : State} (nodup : s.waiting.all.Nodup) (h : P s) : P s.sweep := by
  have run : ∀ (cs : List CtxId) (s : State), cs.Nodup → (∀ c ∈ cs, c ∈ s.waiting.all) → P s →
      P (cs.foldl State.sweepOne s) := by
    intro cs
    induction cs with
    | nil => exact fun _ _ _ h => h
    | cons c cs ih =>
      intro s nodup waits h
      obtain ⟨fresh, nodup⟩ := List.nodup_cons.mp nodup
      have own : c ∈ s.waiting.all := waits c List.mem_cons_self
      have later : ∀ d ∈ cs, d ∈ s.waiting.all := fun d k => waits d (List.mem_cons_of_mem _ k)
      rw [List.foldl_cons]
      rcases s.sweepOne_cases c with ⟨-, k⟩ | ⟨unusable, k⟩ <;> rw [k]
      · exact ih s nodup later h
      · refine ih _ nodup (fun d k => ?_) (lost s c own unusable h)
        have apart : d ≠ c := fun e => fresh (e ▸ k)
        have mem := later d k
        rw [State.endContext_waiting]
        split
        · simpa [Waiting.all, Waiting.remove, apart] using mem
        · exact mem
  exact run _ s nodup (fun _ => id) h

theorem State.ListsExact.waiting_nodup {s : State} (h : s.ListsExact) : s.waiting.all.Nodup := by
  obtain ⟨⟨urgentNodup, routineNodup, urgent, routine⟩, -⟩ := h
  refine List.nodup_append.mpr ⟨urgentNodup, routineNodup, fun a ha b hb => ?_⟩
  rintro rfl
  have k := ((urgent a).mp ha).2
  rw [((routine a).mp hb).2] at k
  cases k

theorem State.clearPosted_callEnd {s : State} {c : CtxId} (ended : (s.ctx c).state = .ended) :
    s.clearPosted (.callEnd c) = s.modCtx c fun _ => Context.cleared := if_pos ended

/-- The head of the outbox is posted, and the context it referred to is FREE (R12, R148). -/
theorem State.OutboxExact.posted {s : State} {e : OutboxEntry} {rest : List OutboxEntry} (h : s.OutboxExact)
    (head : s.report.outbox = e :: rest) :
    ((s.modReport fun w => { w with outbox := rest }).clearPosted e.body).OutboxExact := by
  obtain ⟨done, progress, unsolicited, refs⟩ := h
  unfold State.refsTo at refs
  rw [head] at done progress unsolicited
  simp only [head] at refs
  have fewer : ∀ p : OutboxEntry → Bool, (e :: rest).countP p ≤ Config.quota → rest.countP p ≤ Config.quota :=
    fun p le => (List.sublist_cons_self e rest).countP_le.trans le
  have outbox : ((s.modReport fun w => { w with outbox := rest }).clearPosted e.body).report.outbox = rest := by
    rw [State.clearPosted_report]; rfl
  unfold State.OutboxExact State.refsTo
  rw [outbox]
  refine ⟨fewer _ done, fewer _ progress, fewer _ unsolicited, fun d => ?_⟩
  have ref := refs d
  rw [List.countP_cons] at ref
  by_cases own : e.body = .callEnd d
  · have ended : (s.ctx d).state = .ended := by
      by_contra k; rw [if_neg k] at ref; simp [own] at ref
    rw [if_pos ended] at ref
    have freed : (((s.modReport fun w => { w with outbox := rest }).clearPosted e.body).ctx d).state = .free := by
      rw [own, State.clearPosted_callEnd (by exact ended), State.modCtx_ctx_same]
      rfl
    rw [freed]
    simpa [own] using ref
  · have same : ((s.modReport fun w => { w with outbox := rest }).clearPosted e.body).ctx d = s.ctx d := by
      rcases (s.modReport fun w => { w with outbox := rest }).clearPosted_cases e.body with k | ⟨c, body, -, k⟩ <;> rw [k]
      · rfl
      · rw [State.modCtx_ctx_other _ _ _ _ (fun k => own (by rw [k, body]))]; rfl
    rw [same, ← ref]
    simp [own]

theorem State.Act.outboxExact {s t : State} (act : State.Act R s t) (lists : s.ListsExact) (h : s.OutboxExact) :
    t.OutboxExact := by
  have waits : ∀ {u : State} {c : CtxId}, u.ListsExact → c ∈ u.waiting.all → (u.ctx c).state ≠ .ended := fun k mem => by
    rw [k.pending_of_waits mem]; exact CtxState.noConfusion
  cases act with
  | writer w outbox _ _ => exact h.of_states outbox fun _ => .rfl
  | notes c f notes => exact h.modCtx notes.listed
  | queued b u room => exact h.queued room
  | ends c o active => exact h.endContext (active.elim (waits lists) CtxState.ended_of_active) o
  | sweep =>
    exact (State.sweep_induct_of_waits (P := fun u => u.ListsExact ∧ u.OutboxExact)
      (fun u c mem _ k => ⟨k.1.endContext c _, k.2.endContext (waits k.1 mem) _⟩) lists.waiting_nodup ⟨lists, h⟩).2
  | endsOnLine l o => exact h.endOnLine l o
  | faults l _ => exact h.faultLine l
  | grant c l mem _ =>
    unfold State.grant
    dsimp only
    refine State.OutboxExact.queueProgressIfAsked (h.of_other (c := c) ?_ (fun d e => ?_) (waits lists mem) ?_) _ _ _
    · simp [State.leaveFree]
    · rw [State.modLine_ctx, State.modCtx_ctx_other _ _ _ _ e]; rfl
    · simp
  | glare l _ => exact h.glareTurn l
  | place c x free state due _ _ tag =>
    refine h.of_other (c := c) rfl (fun d e => ?_) (by simp [free]) (by simp [state])
    rw [State.setWaiting_ctx, State.modCtx_ctx_other _ _ _ _ e]
  | refuses c x o free state _ _ =>
    have placed : (s.modCtx c fun _ => x).OutboxExact :=
      h.of_other (c := c) rfl (s.modCtx_others c _) (by simp [free]) (by simp [state])
    exact placed.endContext (by simp [state]) o
  | accepts c l x free state current due _ _ tag =>
    refine h.of_other (c := c) rfl (fun d e => ?_) (by simp [free]) (by simp [state])
    rw [State.modLine_ctx, State.modCtx_ctx_other _ _ _ _ e]
  | due c head =>
    refine h.of_other (c := c) rfl (fun d e => ?_) (by simp [lists.of_dueHead head]) (by simp)
    rw [State.setWaiting_ctx]; exact s.unschedule_others c _ d e
  | dueLost c head =>
    have retrying := lists.of_dueHead head
    refine (h.of_other (c := c) (t := (s.unschedule c).modCtx c fun x => { x with due := none }) rfl
      (s.unschedule_others c _) (by simp [retrying]) ?_).endContext ?_ _ <;> simp [State.unschedule, retrying]
  | posted e rest head => exact h.posted head
  | halts k x w v cause outbox _ _ =>
    refine h.of_states ?_ fun _ => .rfl
    show w.halt.outbox = _
    rw [← outbox]
    unfold ReportWriter.halt
    split <;> rfl
  | resets cause =>
    refine ⟨Nat.zero_le _, Nat.zero_le _, Nat.zero_le _, fun c => ?_⟩
    rw [State.resetBlocks_ctx]
    rfl
  | _ => exact h

/-- Settles O7: while the lists are exact, every act keeps quotas and references. -/
theorem outboxStaysExact : Obligations.OutboxStaysExact :=
  fun _ _ lists h k => (State.Acts.keeps (P := fun s => s.ListsExact ∧ s.OutboxExact)
    (fun act h => ⟨act.listsExact h.1, act.outboxExact h.1 h.2⟩) (step_acts k) ⟨lists, h⟩).2

end Sys2Proof.Machine
end

section
/-! PROOF. Invariants act by act: attempts and snapshots. -/

namespace Sys2Proof.Machine

variable {R : Retained → Retained → Prop}

/-! ## Attempts and snapshots, context by context -/

/-- The attempt count and the snapshot of a context are in their ranges (R4, R50, R103). -/
structure Context.WithinLimit (x : Context) : Prop where
  limit : 1 ≤ x.snapshot.limit
  attempts : x.attempts ≤ x.snapshot.limit
  left : x.state.isActive = true → x.state ≠ .onLine → x.attempts < x.snapshot.limit
  snapshot : x.snapshot = Policy.single ∨ x.snapshot.InRange

def State.WithinLimits (s : State) : Prop := ∀ c, (s.ctx c).WithinLimit

theorem State.withinLimits_iff {s : State} : s.WithinLimits ↔ s.AttemptsInLimit ∧ s.SnapshotsInRange :=
  ⟨fun h => ⟨fun c => ⟨(h c).limit, (h c).attempts, (h c).left⟩, fun c => (h c).snapshot⟩, fun h c =>
    ⟨(h.1 c).1, (h.1 c).2.1, (h.1 c).2.2, h.2 c⟩⟩

/-- The same count and snapshot; a context that has to have an attempt left had to before, or has one. -/
theorem Context.WithinLimit.of_same {x y : Context} (h : x.WithinLimit) (snapshot : y.snapshot = x.snapshot)
    (attempts : y.attempts = x.attempts)
    (left : y.state.isActive = true → y.state ≠ .onLine →
      (x.state.isActive = true ∧ x.state ≠ .onLine) ∨ x.attempts < x.snapshot.limit) : y.WithinLimit := by
  refine ⟨by rw [snapshot]; exact h.limit, by rw [snapshot, attempts]; exact h.attempts, fun active waits => ?_,
    by rw [snapshot]; exact h.snapshot⟩
  rw [snapshot, attempts]
  exact (left active waits).elim (fun k => h.left k.1 k.2) id

/-- A context that intake has just made (R3, R50): no attempt yet. -/
theorem Context.WithinLimit.fresh {x : Context} (attempts : x.attempts = 0)
    (snapshot : x.snapshot = Policy.single ∨ x.snapshot.InRange) : x.WithinLimit := by
  have limit : 1 ≤ x.snapshot.limit := by
    rcases snapshot with k | ⟨⟨k, -⟩, -⟩
    · rw [k]; exact Nat.le_refl 1
    · exact k
  exact ⟨limit, by omega, fun _ _ => by omega, snapshot⟩

theorem Context.WithinLimit.notes {x y : Context} (h : x.WithinLimit) (k : x.Notes y) : y.WithinLimit :=
  h.of_same k.snapshot k.attempts fun active waits => .inl (by rw [k.state] at active waits; exact ⟨active, waits⟩)

theorem Context.WithinLimit.afterEnd {x : Context} (h : x.WithinLimit) (o : CallOutcome) : (x.afterEnd o).WithinLimit :=
  h.of_same rfl rfl fun active _ => by cases active

theorem State.WithinLimits.of_other {s t : State} {c : CtxId} (h : s.WithinLimits) (others : s.OtherCtxs t c)
    (own : (t.ctx c).WithinLimit) : t.WithinLimits := by
  intro d
  by_cases e : d = c
  · subst e; exact own
  · rw [others d e]; exact h d

theorem State.WithinLimits.of_notes {s t : State} (h : s.WithinLimits) (notes : ∀ d, (s.ctx d).Notes (t.ctx d)) :
    t.WithinLimits := fun d => (h d).notes (notes d)

theorem State.WithinLimits.endContext {s : State} (h : s.WithinLimits) (c : CtxId) (o : CallOutcome) :
    (s.endContext c o).WithinLimits :=
  h.of_other (s.endContext_others c o) (by rw [State.endContext_ctx_same]; exact (h c).afterEnd o)

theorem State.WithinLimits.modCtx {s : State} (h : s.WithinLimits) {c : CtxId} {f : Context → Context}
    (own : (f (s.ctx c)).WithinLimit) : (s.modCtx c f).WithinLimits :=
  h.of_other (s.modCtx_others c f) (by rw [State.modCtx_ctx_same]; exact own)

theorem State.WithinLimits.detach {s : State} (h : s.WithinLimits) (c : CtxId) (o : CallOutcome) :
    (s.detach c o).WithinLimits := h.modCtx ((h c).of_same rfl rfl fun active waits => .inl ⟨active, waits⟩)

theorem State.WithinLimits.judgeFailure {s : State} (h : s.WithinLimits) (c : CtxId) (l : LineId) (o : CallOutcome) :
    (s.judgeFailure c l o).WithinLimits := by
  rcases s.judgeFailure_cases c l o with ⟨k, allows, -⟩ | ⟨k, -⟩ | ⟨k, -⟩ <;> rw [k]
  · have left : (s.ctx c).attempts < (s.ctx c).snapshot.limit := by
      unfold Policy.allowsRetry at allows
      split at allows
      · exact of_decide_eq_true (Bool.and_elim_right allows)
      · cases allows
    refine h.of_other (s.enterRetryWait_others c l o) (Context.WithinLimit.notes ?_ (s.enterRetryWait_notes c l o))
    exact (h c).of_same rfl rfl fun _ _ => .inr left
  · exact h.endContext c _
  · exact h.endContext c _

theorem State.WithinLimits.endOnLine {s : State} (h : s.WithinLimits) (l : LineId) (o : CallOutcome) :
    (s.endOnLine l o).WithinLimits := by
  have cleared : (s.clearLine l).WithinLimits := fun d => by rw [State.clearLine_ctx]; exact h d
  rcases s.endOnLine_cases l o with ⟨-, k⟩ | ⟨c, -, -, ⟨-, -, k⟩ | ⟨-, k⟩⟩ <;> rw [k]
  · exact cleared
  · exact (cleared.detach c o).judgeFailure c l o
  · exact (cleared.detach c o).endContext c o

theorem State.WithinLimits.faultLine {s : State} (h : s.WithinLimits) (l : LineId) : (s.faultLine l).WithinLimits := by
  have faulted : ((s.modLine l Line.toFault).setMeter l none).WithinLimits := h
  have queued : ∀ u : State, u.WithinLimits → (u.queueUnsolicited (.lineFault l)).WithinLimits := fun u k d => by
    rw [State.queueUnsolicited_ctx]; exact k d
  unfold State.faultLine
  dsimp only
  refine queued _ ?_
  split
  · split
    · exact (faulted.detach _ _).endContext _ _
    · exact faulted
  · exact faulted

/-- Glare gives the attempt back (R51). -/
theorem State.WithinLimits.glareTurn {s : State} (h : s.WithinLimits) (l : LineId) : (s.glareTurn l).WithinLimits := by
  have rings : (s.modLine l Line.toGlare).WithinLimits := h
  have given : ∀ {x : Context} (p q : Option LineId) (st : CtxState), x.WithinLimit →
      { x with state := st, currentLine := p, attempts := x.attempts - 1, lastLine := q }.WithinLimit := by
    intro x p q st k
    have limit := k.limit
    have attempts := k.attempts
    exact ⟨limit, show x.attempts - 1 ≤ x.snapshot.limit by omega, fun _ _ => show x.attempts - 1 < x.snapshot.limit by omega, k.snapshot⟩
  unfold State.glareTurn
  split
  · split
    · rename_i c _ onLine
      have back : ((s.modLine l Line.toGlare).modCtx c fun x =>
          { x with currentLine := none, attempts := x.attempts - 1, lastLine := x.prevLine }).WithinLimits :=
        rings.modCtx (given none _ _ (h c))
      unfold State.glareReturn
      dsimp only
      split
      · exact back.endContext c _
      · have waits := back.modCtx (c := c) (f := fun x => { x with state := .pending }) (by
          rw [State.modCtx_ctx_same]; exact given none _ .pending (h c))
        exact waits
    · exact rings
  · exact rings

/-- A snapshot that intake can take is in its range (R102, R103). -/
theorem State.PoliciesInRange.snapshot {s : State} (h : s.PoliciesInRange) {p : Policy} (k : s.Snapshot p) :
    p = Policy.single ∨ p.InRange := by
  rcases k with rfl | ⟨i, k⟩
  · exact .inl rfl
  · exact .inr (h i p k)

theorem State.Act.withinLimits {s t : State} (act : State.Act R s t) (lists : s.ListsExact) (policies : s.PoliciesInRange)
    (h : s.WithinLimits) : t.WithinLimits := by
  cases act with
  | notes c f notes => exact h.of_notes (State.modCtx_notes notes)
  | ends c o _ => exact h.endContext c o
  | sweep => exact State.sweep_induct (P := State.WithinLimits) (fun _ c _ k => k.endContext c _) h
  | endsOnLine l o => exact h.endOnLine l o
  | faults l _ => exact h.faultLine l
  | grant c l mem _ =>
    have left := (h c).left (by rw [lists.pending_of_waits mem]; rfl)
      (by rw [lists.pending_of_waits mem]; exact CtxState.noConfusion)
    refine h.of_other (s.grant_others c l) (Context.WithinLimit.notes ?_ (s.grant_notes c l))
    exact ⟨(h c).limit, left, fun _ k => absurd rfl k, (h c).snapshot⟩
  | glare l _ => exact h.glareTurn l
  | place c x _ _ _ attempts snapshot _ => exact h.modCtx (c := c) (f := fun _ => x) (.fresh attempts (policies.snapshot snapshot))
  | refuses c x o _ _ attempts snapshot =>
    exact (h.modCtx (f := fun _ => x) (.fresh attempts (policies.snapshot snapshot))).endContext c o
  | accepts c l x _ _ _ _ attempts snapshot _ _ =>
    exact h.modCtx (c := c) (f := fun _ => x) (.fresh attempts (.inl snapshot))
  | due c head =>
    have retrying := lists.of_dueHead head
    have own : ({ s.ctx c with state := .pending, due := none } : Context).WithinLimit :=
      (h c).of_same rfl rfl fun _ _ => .inl (by rw [retrying]; exact ⟨rfl, CtxState.noConfusion⟩)
    exact State.WithinLimits.modCtx (s := s.unschedule c) (c := c) (f := fun x => { x with state := .pending, due := none })
      h own
  | dueLost c head =>
    have own : ({ s.ctx c with due := none } : Context).WithinLimit :=
      (h c).of_same rfl rfl fun active waits => .inl ⟨active, waits⟩
    exact (State.WithinLimits.modCtx (s := s.unschedule c) (c := c) (f := fun x => { x with due := none }) h own).endContext c _
  | posted e rest _ =>
    rcases (s.modReport fun w => { w with outbox := rest }).clearPosted_cases e.body with k | ⟨c, -, -, k⟩ <;> rw [k]
    · exact h
    · exact State.WithinLimits.modCtx (s := s.modReport fun w => { w with outbox := rest }) h (.fresh rfl (.inl rfl))
  | resets cause =>
    intro c
    rw [State.resetBlocks_ctx]
    exact .fresh rfl (.inl rfl)
  | _ => exact h

/-- Lists, policies and attempts together, along a run that changes the retained domain as tables are written. -/
theorem State.Acts.withinLimits {s t : State} (run : State.Acts Retained.Tidy s t)
    (h : s.ListsExact ∧ s.PoliciesInRange ∧ s.WithinLimits) : t.ListsExact ∧ t.PoliciesInRange ∧ t.WithinLimits :=
  State.Acts.keeps (P := fun s => s.ListsExact ∧ s.PoliciesInRange ∧ s.WithinLimits)
    (fun act h => ⟨act.listsExact h.1, act.policiesInRange h.2.1, act.withinLimits h.1 h.2.1 h.2.2⟩) run h

/-- A command that takes the retained content away makes no call. -/
theorem exec_loss_withinLimits {i : Instr} {s t : State} (loss : LosesContent s i) (h : exec i s = .next t)
    (within : s.WithinLimits) : t.WithinLimits := by
  cases i <;> try exact False.elim loss
  case vbatLoss =>
    obtain rfl := Host.Outcome.next.inj h
    unfold State.batteryLost
    split <;> exact within
  case powerOnReset vdd =>
    obtain rfl := Host.Outcome.next.inj h
    have cleared : ∀ c, (s.beginPowerReset vdd).ctx c = Context.cleared := fun c =>
      (s.cutBy vdd.cut).resetBlocks_ctx (if vdd.above then .power else s.ctl.cause) c
    have fresh : (s.beginPowerReset vdd).WithinLimits := fun c => by rw [cleared]; exact .fresh rfl (.inl rfl)
    rcases s.powerCrosses_cases vdd with ⟨-, -, k⟩ | ⟨-, k⟩ <;> rw [k] <;> exact fresh

/-- Settles O9: while lists and policies are exact, every act keeps attempts and snapshots; a loss of the content makes no
call. -/
theorem attemptsStayInLimit : Obligations.AttemptsStayInLimit := by
  intro s t lists policies snapshots attempts h
  have start : s.ListsExact ∧ s.PoliciesInRange ∧ s.WithinLimits :=
    ⟨lists, policies, State.withinLimits_iff.mpr ⟨attempts, snapshots⟩⟩
  have moves : ∀ {t r : Retained}, t.Moves r → t.Tidy r := fun h => h.toTidy
  have within : t.WithinLimits := by
    rcases step_cases h with ⟨i, u, k, -, before, -⟩ | rfl
    · have startU := (before Retained.Tidy).withinLimits start
      by_cases loss : LosesContent u i
      · exact exec_loss_withinLimits loss k startU.2.2
      · exact ((exec_acts moves i (fun k => absurd k loss) (fun _ _ _ => id) k).withinLimits startU).2.2
    · exact (State.Acts.withinLimits (s.intakeLooks_acts.trans (State.passMs_acts moves _)) start).2.2
  obtain ⟨attempts, snapshots⟩ := State.withinLimits_iff.mp within
  exact ⟨attempts, snapshots, fun holds => ((step_acts_tidy holds h).withinLimits start).2.1⟩

end Sys2Proof.Machine
end

section
/-! PROOF. Invariants act by act: the lines and the contexts they hold; the digit-tone drive and the classifier. -/

namespace Sys2Proof.Machine

variable {R : Retained → Retained → Prop}

/-! ## Lines and the contexts they hold -/

/-- What `State.LinesExact` says outside HALTED (R9, R56, R129). -/
structure State.Linked (s : State) : Prop where
  offHook : ∀ l, (s.line l).held.isSome = (s.line l).state.offHook
  names : ∀ l c, (s.line l).held = some c → (s.ctx c).state = .onLine ∧ (s.ctx c).currentLine = some l
  holds : ∀ c, (s.ctx c).state = .onLine → ∃ l, (s.line l).held = some c
  meters : ∀ l, ∀ e ∈ s.meter l, (s.line l).state = .connected ∧ (s.line l).held = some e.ctx

theorem State.linesExact_iff {s : State} : s.LinesExact ↔ (s.ctl.engine ≠ .halted → s.Linked) :=
  ⟨fun h running => have ⟨offHook, names, holds, meters⟩ := h running; ⟨offHook, names, holds, meters⟩,
    fun h running => have k := h running; ⟨k.offHook, k.names, k.holds, k.meters⟩⟩

/-- The links are those of `Linked` but for context `c`, which no line holds. -/
structure State.LinkedBut (s : State) (c : CtxId) : Prop where
  offHook : ∀ l, (s.line l).held.isSome = (s.line l).state.offHook
  names : ∀ l d, (s.line l).held = some d → d ≠ c ∧ (s.ctx d).state = .onLine ∧ (s.ctx d).currentLine = some l
  holds : ∀ d, d ≠ c → (s.ctx d).state = .onLine → ∃ l, (s.line l).held = some d
  meters : ∀ l, ∀ e ∈ s.meter l, (s.line l).state = .connected ∧ (s.line l).held = some e.ctx

/-- The context that no line holds is not ON_LINE. -/
theorem State.LinkedBut.settled {s : State} {c : CtxId} (h : s.LinkedBut c) (off : (s.ctx c).state ≠ .onLine) :
    s.Linked where
  offHook := h.offHook
  names l d k := (h.names l d k).2
  holds d k := h.holds d (fun e => off (e ▸ k)) k
  meters := h.meters

theorem State.LinkedBut.congr {s t : State} {c : CtxId} (h : s.LinkedBut c) (lines : ∀ l, t.line l = s.line l)
    (meters : ∀ l, t.meter l = s.meter l) (others : s.OtherCtxs t c) : t.LinkedBut c where
  offHook l := by rw [lines]; exact h.offHook l
  names l d k := by
    rw [lines] at k
    obtain ⟨apart, onLine, current⟩ := h.names l d k
    rw [others d apart]
    exact ⟨apart, onLine, current⟩
  holds d apart k := by
    rw [others d apart] at k
    simp only [lines]
    exact h.holds d apart k
  meters l e k := by
    rw [meters] at k
    rw [lines]
    exact h.meters l e k

/-- Two lines do not hold one context (R9). -/
theorem State.Linked.held_inj {s : State} (h : s.Linked) {k l : LineId} {c : CtxId} (hk : (s.line k).held = some c)
    (hl : (s.line l).held = some c) : k = l :=
  Option.some.inj ((h.names k c hk).2.symm.trans (h.names l c hl).2)

/-- Line `l` has let go of its context `c`. -/
theorem State.Linked.frees {s t : State} {l : LineId} {c : CtxId} (h : s.Linked) (held : (s.line l).held = some c)
    (freed : (t.line l).held = none) (onHook : (t.line l).state.offHook = false) (closed : t.meter l = none)
    (lines : ∀ k, k ≠ l → t.line k = s.line k ∧ t.meter k = s.meter k) (others : s.OtherCtxs t c) : t.LinkedBut c where
  offHook k := by
    by_cases e : k = l
    · subst e; rw [freed, onHook]; rfl
    · rw [(lines k e).1]; exact h.offHook k
  names k d hd := by
    by_cases e : k = l
    · subst e; rw [freed] at hd; cases hd
    · rw [(lines k e).1] at hd
      have apart : d ≠ c := fun same => e (h.held_inj (same ▸ hd) held)
      rw [others d apart]
      exact ⟨apart, h.names k d hd⟩
  holds d apart onLine := by
    rw [others d apart] at onLine
    obtain ⟨k, hk⟩ := h.holds d onLine
    have away : k ≠ l := fun e => apart (Option.some.inj (by rw [← hk, e, held]))
    exact ⟨k, by rw [(lines k away).1, hk]⟩
  meters k e he := by
    by_cases same : k = l
    · subst same; rw [closed] at he; cases he
    · rw [(lines k same).2] at he
      rw [(lines k same).1]
      exact h.meters k e he

/-- Line `l`, which held nothing, holds context `c`, which comes ON_LINE. -/
theorem State.Linked.takes {s t : State} {l : LineId} {c : CtxId} (h : s.Linked)
    (onHook : (s.line l).state.offHook = false) (off : (s.ctx c).state ≠ .onLine) (held : (t.line l).held = some c)
    (offHook : (t.line l).state.offHook = true) (onLine : (t.ctx c).state = .onLine)
    (current : (t.ctx c).currentLine = some l) (lines : ∀ k, k ≠ l → t.line k = s.line k)
    (meters : ∀ k, t.meter k = s.meter k) (others : s.OtherCtxs t c) : t.Linked where
  offHook k := by
    by_cases e : k = l
    · subst e; rw [held, offHook]; rfl
    · rw [lines k e]; exact h.offHook k
  names k d hd := by
    by_cases e : k = l
    · subst e; rw [held] at hd; cases hd; exact ⟨onLine, current⟩
    · rw [lines k e] at hd
      have k := h.names k d hd
      rw [others d fun same => off (same ▸ k.1)]
      exact k
  holds d k := by
    by_cases same : d = c
    · exact ⟨l, same ▸ held⟩
    · rw [others d same] at k
      obtain ⟨m, hm⟩ := h.holds d k
      have away : m ≠ l := by
        rintro rfl
        have k := h.offHook m
        rw [hm, onHook] at k
        cases k
      exact ⟨m, by rw [lines m away, hm]⟩
  meters k e he := by
    rw [meters] at he
    obtain ⟨connected, heldE⟩ := h.meters k e he
    have away : k ≠ l := by rintro rfl; rw [connected] at onHook; cases onHook
    rw [lines k away]
    exact ⟨connected, heldE⟩

/-- Nothing of the links has changed. -/
theorem State.Linked.of_same {s t : State} (h : s.Linked) (lines : ∀ l, (t.line l).held = (s.line l).held
      ∧ (t.line l).state.offHook = (s.line l).state.offHook ∧ ((s.line l).state = .connected → (t.line l).state = .connected))
    (meters : ∀ l, t.meter l = s.meter l)
    (ctxs : ∀ d, ((t.ctx d).state = .onLine ↔ (s.ctx d).state = .onLine)
      ∧ ((s.ctx d).state = .onLine → (t.ctx d).currentLine = (s.ctx d).currentLine)) : t.Linked where
  offHook l := by rw [(lines l).1, (lines l).2.1]; exact h.offHook l
  names l d k := by
    rw [(lines l).1] at k
    obtain ⟨onLine, current⟩ := h.names l d k
    exact ⟨(ctxs d).1.mpr onLine, ((ctxs d).2 onLine).trans current⟩
  holds d k := by
    obtain ⟨l, hl⟩ := h.holds d ((ctxs d).1.mp k)
    exact ⟨l, (lines l).1.trans hl⟩
  meters l e k := by
    rw [meters] at k
    obtain ⟨connected, held⟩ := h.meters l e k
    exact ⟨(lines l).2.2 connected, (lines l).1.trans held⟩

/-- A context that is not ON_LINE, before and behind, concerns no line. -/
theorem State.Linked.of_other {s t : State} {c : CtxId} (h : s.Linked) (lines : ∀ l, t.line l = s.line l)
    (meters : ∀ l, t.meter l = s.meter l) (others : s.OtherCtxs t c) (before : (s.ctx c).state ≠ .onLine)
    (after : (t.ctx c).state ≠ .onLine) : t.Linked := by
  refine h.of_same (fun l => by rw [lines]; exact ⟨rfl, rfl, id⟩) meters fun d => ?_
  by_cases e : d = c
  · subst e; exact ⟨iff_of_false after before, fun k => absurd k before⟩
  · rw [others d e]; exact ⟨.rfl, fun _ => rfl⟩

theorem State.Linked.of_notes {s t : State} (h : s.Linked) (lines : ∀ l, t.line l = s.line l)
    (meters : ∀ l, t.meter l = s.meter l) (notes : ∀ d, (s.ctx d).Notes (t.ctx d)) : t.Linked :=
  h.of_same (fun l => by rw [lines]; exact ⟨rfl, rfl, id⟩) meters fun d =>
    ⟨by rw [(notes d).state], fun _ => (notes d).currentLine⟩

/-! ## The links act by act -/

/-- The ending step frees the line of its context (R9, R74). -/
theorem State.Linked.endContext {s : State} (h : s.Linked) (c : CtxId) (o : CallOutcome) : (s.endContext c o).Linked := by
  have ended : ((s.endContext c o).ctx c).state ≠ .onLine := by
    rw [State.endContext_ctx_same]; exact CtxState.noConfusion
  by_cases onLine : (s.ctx c).state = .onLine
  · obtain ⟨l, held⟩ := h.holds c onLine
    have left : (s.ctx c).lineLeft = some l := by
      unfold Context.lineLeft; rw [if_pos onLine]; exact (h.names l c held).2
    have offHook : (s.line l).state.offHook = true := by rw [← h.offHook, held]; rfl
    have line : (s.endContext c o).line l = (s.line l).toClearing := by
      rw [State.endContext_line, if_pos ⟨left, offHook⟩]
    refine (h.frees held ?_ ?_ ?_ (fun k e => ?_) (s.endContext_others c o)).settled ended
    · rw [line]; rfl
    · rw [line]; rfl
    · rw [State.endContext_meter, if_pos ⟨left, offHook⟩]
    · have apart : ¬((s.ctx c).lineLeft = some k ∧ (s.line k).state.offHook = true) := fun k => by
        rw [left] at k; exact e (Option.some.inj k.1).symm
      rw [State.endContext_line, State.endContext_meter, if_neg apart, if_neg apart]
      exact ⟨rfl, rfl⟩
  · have apart : ∀ l, ¬((s.ctx c).lineLeft = some l ∧ (s.line l).state.offHook = true) := fun l k => by
      unfold Context.lineLeft at k; rw [if_neg onLine] at k; cases k.1
    exact h.of_other (fun l => by rw [State.endContext_line, if_neg (apart l)])
      (fun l => by rw [State.endContext_meter, if_neg (apart l)]) (s.endContext_others c o) onLine ended

/-- A context that no line holds ends, or waits for a retry. -/
theorem State.LinkedBut.endContext {s : State} {c : CtxId} (h : s.LinkedBut c) (current : (s.ctx c).currentLine = none)
    (o : CallOutcome) : (s.endContext c o).Linked := by
  have apart : ∀ l, ¬((s.ctx c).lineLeft = some l ∧ (s.line l).state.offHook = true) := fun l k => by
    unfold Context.lineLeft at k
    rw [current, ite_self] at k
    cases k.1
  refine (h.congr (fun l => ?_) (fun l => ?_) (s.endContext_others c o)).settled ?_
  · rw [State.endContext_line, if_neg (apart l)]
  · rw [State.endContext_meter, if_neg (apart l)]
  · rw [State.endContext_ctx_same]; exact CtxState.noConfusion

theorem State.LinkedBut.judgeFailure {s : State} {c : CtxId} (h : s.LinkedBut c) (current : (s.ctx c).currentLine = none)
    (l : LineId) (o : CallOutcome) : (s.judgeFailure c l o).Linked := by
  rcases s.judgeFailure_cases c l o with ⟨k, -⟩ | ⟨k, -⟩ | ⟨k, -⟩ <;> rw [k]
  · obtain ⟨-, lines, meters, -⟩ := s.enterRetryWait_fields c l o
    refine (h.congr (State.line_congr lines) (State.meter_congr meters) (s.enterRetryWait_others c l o)).settled ?_
    rw [(s.enterRetryWait_notes c l o).state]
    exact CtxState.noConfusion
  · exact h.endContext current _
  · exact h.endContext current _

theorem State.Linked.endOnLine {s : State} (h : s.Linked) (l : LineId) (o : CallOutcome) : (s.endOnLine l o).Linked := by
  rcases s.endOnLine_cases l o with ⟨off, k⟩ | ⟨c, held, onLine, ending⟩
  · have onHook : ¬(s.line l).state.offHook = true := by
      rw [← h.offHook]
      intro k
      obtain ⟨c, held⟩ := Option.isSome_iff_exists.mp k
      exact off c held (h.names l c held).1
    rw [k]
    unfold State.clearLine
    rwa [if_neg onHook]
  · have offHook : (s.line l).state.offHook = true := by rw [← h.offHook, held]; rfl
    have line : ((s.clearLine l).detach c o).line l = (s.line l).toClearing := by
      simp [State.detach, State.clearLine_line, offHook]
    have detached : ((s.clearLine l).detach c o).LinkedBut c := by
      refine h.frees held ?_ ?_ ?_ (fun k e => ?_) fun d e => ?_
      · rw [line]; rfl
      · rw [line]; rfl
      · simp [State.detach, State.clearLine_meter, offHook]
      · simp [State.detach, State.clearLine_line, State.clearLine_meter, e]
      · simp [State.detach, State.modCtx_ctx_other _ _ _ _ e]
    have current : (((s.clearLine l).detach c o).ctx c).currentLine = none := by simp [State.detach]
    rcases ending with ⟨-, -, k⟩ | ⟨-, k⟩ <;> rw [k]
    · exact detached.judgeFailure current l o
    · exact detached.endContext current o

/-- A line off the hook holds a context, which is ON_LINE (R56). -/
theorem State.Linked.held_of_offHook {s : State} (h : s.Linked) {l : LineId} (offHook : (s.line l).state.offHook = true) :
    ∃ c, (s.line l).held = some c ∧ (s.ctx c).state = .onLine := by
  obtain ⟨c, held⟩ := Option.isSome_iff_exists.mp ((h.offHook l).trans offHook)
  exact ⟨c, held, (h.names l c held).1⟩

theorem State.Linked.faultLine {s : State} (h : s.Linked) {l : LineId} (offHook : (s.line l).state.offHook = true) :
    (s.faultLine l).Linked := by
  obtain ⟨c, held, onLine⟩ := h.held_of_offHook offHook
  have detached : (((s.modLine l Line.toFault).setMeter l none).detach c .lineFault).LinkedBut c := by
    refine h.frees held ?_ ?_ ?_ (fun k e => ?_) fun d e => ?_
    · simp [State.detach, Line.toFault]
    · simp [State.detach, Line.toFault, LineState.offHook]
    · simp [State.detach]
    · simp [State.detach, State.modLine_line_other _ _ _ _ e, State.setMeter_meter_other _ _ _ _ e]
    · simp [State.detach, State.modCtx_ctx_other _ _ _ _ e]
  have ended := detached.endContext (by simp [State.detach]) .lineFault
  unfold State.faultLine
  dsimp only
  rw [held]
  dsimp only
  rw [if_pos onLine]
  exact ended.of_notes (fun k => by simp) (fun k => by simp) fun d => by rw [State.queueUnsolicited_ctx]

theorem State.Linked.glareTurn {s : State} (h : s.Linked) {l : LineId} (seized : (s.line l).state = .seize) :
    (s.glareTurn l).Linked := by
  obtain ⟨c, held, onLine⟩ := h.held_of_offHook (l := l) (by rw [seized]; rfl)
  have closed : s.meter l = none := by
    by_contra k
    obtain ⟨e, open'⟩ := Option.ne_none_iff_exists'.mp k
    have connected := (h.meters l e open').1
    rw [seized] at connected
    cases connected
  have given : ((s.modLine l Line.toGlare).modCtx c fun x =>
      { x with currentLine := none, attempts := x.attempts - 1, lastLine := x.prevLine }).LinkedBut c := by
    refine h.frees held ?_ ?_ ?_ (fun k e => ?_) fun d e => ?_
    · simp [Line.toGlare]
    · simp [Line.toGlare, LineState.offHook]
    · simpa using closed
    · simp [State.modLine_line_other _ _ _ _ e]
    · simp [State.modCtx_ctx_other _ _ _ _ e]
  unfold State.glareTurn
  rw [held]
  dsimp only
  rw [if_pos onLine]
  unfold State.glareReturn
  dsimp only
  split
  · exact given.endContext (by simp) _
  · refine (given.congr (fun k => by simp) (fun k => by simp) fun d e => ?_).settled (by simp)
    rw [State.setWaiting_ctx, State.modCtx_ctx_other _ _ _ _ e]

theorem State.FreeListExact.onHook {s : State} (h : s.FreeListExact) {l : LineId} (free : l ∈ s.freeLines) :
    (s.line l).state = .idle := (h.2 l).mp free

/-- After a reset no line holds a context (R56). -/
theorem State.resetBlocks_linked (s : State) (cause : ResetCause) : (s.resetBlocks cause).Linked := by
  refine ⟨fun l => ?_, fun l c held => ?_, fun c onLine => ?_, fun l e he => ?_⟩
  · rw [State.resetBlocks_line]; rfl
  · rw [State.resetBlocks_line] at held; cases held
  · rw [State.resetBlocks_ctx] at onLine; cases onLine
  · have none : (s.resetBlocks cause).meter l = none := by
      show (Vector.replicate 8 (none : Option MeterEntry))[l] = none
      simp
    rw [none] at he; cases he

theorem State.Act.linked {s t : State} (act : State.Act R s t) (lists : s.ListsExact) (free : s.FreeListExact)
    (h : s.Linked) (running : t.ctl.engine ≠ .halted) : t.Linked := by
  cases act with
  | lines v moves =>
    exact h.of_same (t := { s with lines := v }) (fun l => ⟨(moves l).held, (moves l).offHook, (moves l).connected⟩)
      (fun _ => rfl) fun _ => ⟨.rfl, fun _ => rfl⟩
  | meter l e justified =>
    refine ⟨h.offHook, h.names, h.holds, fun k e' he' => ?_⟩
    by_cases same : k = l
    · subst same
      rw [State.setMeter_meter_same] at he'
      cases he'
      rw [State.setMeter_line]
      rcases justified with k | ⟨e', he', ctx⟩
      · exact k
      · rw [← ctx]; exact h.meters _ _ he'
    · rw [State.setMeter_meter_other _ _ _ _ same] at he'
      exact h.meters k e' he'
  | notes c f notes => exact h.of_notes (fun _ => rfl) (fun _ => rfl) (State.modCtx_notes notes)
  | leavesFree l f offHook offHook' _ held _ =>
    refine h.of_same (fun k => ?_) (fun _ => rfl) fun _ => ⟨.rfl, fun _ => rfl⟩
    rw [State.leaveFree_line, State.modLine_line]
    split
    · rename_i e; subst e
      exact ⟨held, offHook'.trans offHook.symm, fun k => by rw [k] at offHook; cases offHook⟩
    · exact ⟨rfl, rfl, id⟩
  | joinsFree l f offHook _ idle held _ =>
    refine h.of_same (fun k => ?_) (fun _ => rfl) fun _ => ⟨.rfl, fun _ => rfl⟩
    rw [State.joinFree_line, State.modLine_line]
    split
    · rename_i e; subst e
      exact ⟨held, by rw [idle, offHook]; rfl, fun k => by rw [k] at offHook; cases offHook⟩
    · exact ⟨rfl, rfl, id⟩
  | ends c o _ => exact h.endContext c o
  | sweep => exact State.sweep_induct (P := State.Linked) (fun _ c _ k => k.endContext c _) h
  | endsOnLine l o => exact h.endOnLine l o
  | faults l offHook => exact h.faultLine offHook
  | grant c l mem isFree =>
    have notes := s.grant_notes c l
    refine h.takes (l := l) (c := c) (by rw [free.onHook isFree]; rfl)
      (by rw [lists.pending_of_waits mem]; exact CtxState.noConfusion) ?_ ?_ notes.state notes.currentLine (fun k e => ?_)
      (fun k => ?_) (s.grant_others c l)
    · rw [State.grant_line]; rfl
    · rw [State.grant_line]; rfl
    · unfold State.grant; simp [State.modLine_line_other _ _ _ _ e]
    · unfold State.grant; simp
  | glare l seized => exact h.glareTurn seized
  | place c x state pending _ _ _ _ =>
    refine h.of_other (c := c) (fun _ => rfl) (fun _ => rfl) (fun d e => ?_) (by simp [state]) (by simp [pending])
    rw [State.setWaiting_ctx, State.modCtx_ctx_other _ _ _ _ e]
  | refuses c x o state state' _ _ =>
    have placed : (s.modCtx c fun _ => x).Linked :=
      h.of_other (c := c) (fun _ => rfl) (fun _ => rfl) (s.modCtx_others c _) (by simp [state]) (by simp [state'])
    exact placed.endContext c o
  | accepts c l x state onLine current _ _ _ _ ringing =>
    refine h.takes (l := l) (c := c) (by rw [ringing]; rfl) (by rw [state]; exact CtxState.noConfusion) ?_ ?_ ?_ ?_
      (fun k e => ?_) (fun k => rfl) fun d e => ?_
    · simp [Line.toAnswering]
    · simp [Line.toAnswering, LineState.offHook]
    · simp [onLine]
    · simp [current]
    · simp [State.modLine_line_other _ _ _ _ e]
    · simp [State.modCtx_ctx_other _ _ _ _ e]
  | due c head =>
    have retrying := lists.of_dueHead head
    refine h.of_other (c := c) (fun _ => rfl) (fun _ => rfl) (fun d e => ?_) (by simp [retrying]) (by simp)
    rw [State.setWaiting_ctx]; exact s.unschedule_others c _ d e
  | dueLost c head =>
    have retrying := lists.of_dueHead head
    have due : ((s.unschedule c).modCtx c fun x => { x with due := none }).Linked :=
      h.of_other (c := c) (fun _ => rfl) (fun _ => rfl) (s.unschedule_others c _) (by simp [retrying])
        (by simp [State.unschedule, retrying])
    exact due.endContext c _
  | posted e rest _ =>
    rcases (s.modReport fun w => { w with outbox := rest }).clearPosted_cases e.body with k | ⟨c, -, ended, k⟩ <;> rw [k]
    · exact ⟨h.offHook, h.names, h.holds, h.meters⟩
    · have ended : (s.ctx c).state = .ended := ended
      exact h.of_other (c := c) (fun _ => rfl) (fun _ => rfl) (fun d e => State.modCtx_ctx_other _ c d _ e)
        (by simp [ended]) (by simp [Context.cleared])
  | halts => exact absurd rfl running
  | resets cause => exact s.resetBlocks_linked cause
  | _ => exact ⟨h.offHook, h.names, h.holds, h.meters⟩

/-- A reset apart, HALTED is not left. -/
theorem State.Act.running_before {s t : State} (act : State.Act R s t) (running : t.ctl.engine ≠ .halted) :
    s.ctl.engine ≠ .halted ∨ ∃ cause, t = s.resetBlocks cause := by
  rcases act.keeps_report with ⟨k, -⟩ | ⟨k, p, n, m, d, q, halted, rfl⟩ | ⟨x, -, rfl⟩ | ⟨w, -, -, rfl⟩
    | ⟨m, rfl⟩ | ⟨u, cause, rfl, -⟩ | ⟨cause, rfl⟩
  · exact .inl (k.ctl ▸ running)
  · exact .inl fun k => running (halted k)
  · exact .inl running
  · exact .inl running
  · exact .inl running
  · exact absurd rfl running
  · exact .inr ⟨cause, rfl⟩

theorem State.Act.linesExact {s t : State} (act : State.Act R s t) (lists : s.ListsExact) (free : s.FreeListExact)
    (h : s.LinesExact) : t.LinesExact := by
  rw [State.linesExact_iff] at h ⊢
  intro running
  rcases act.running_before running with before | ⟨cause, rfl⟩
  · exact act.linked lists free (h before) running
  · exact s.resetBlocks_linked cause

/-! ## Signalling act by act -/

def State.Signals (s : State) : Prop := ∀ l, (s.line l).SignallingExact

theorem State.Signals.of_lines {s t : State} (h : s.Signals) (lines : t.lines = s.lines) : t.Signals := fun l => by
  rw [State.line_congr lines]; exact h l

theorem State.Signals.modLine {s : State} (h : s.Signals) {l : LineId} {f : Line → Line}
    (own : (f (s.line l)).SignallingExact) : (s.modLine l f).Signals := by
  intro k
  rw [State.modLine_line]
  split
  · exact own
  · exact h k

/-- A line whose attempt has been stopped is silent (R73). -/
theorem Line.stopAttempt_silent (ln : Line) : ln.stopAttempt.Silent := ⟨rfl, rfl, rfl, rfl, rfl, rfl⟩

theorem Line.toClearing_signalling (ln : Line) : ln.toClearing.SignallingExact :=
  Line.Silent.signalling ⟨rfl, rfl, rfl, rfl, rfl, rfl⟩ LineState.noConfusion

theorem Line.toFault_signalling (ln : Line) : ln.toFault.SignallingExact :=
  Line.Silent.signalling ⟨rfl, rfl, rfl, rfl, rfl, rfl⟩ LineState.noConfusion

theorem Line.halt_signalling (ln : Line) : ln.halt.SignallingExact :=
  Line.Silent.signalling ⟨rfl, rfl, rfl, rfl, rfl, rfl⟩ LineState.noConfusion

/-- A silent line seized, or answering, stays silent (R61, R97). -/
theorem Line.Silent.toSeize {x : Line} (h : x.Silent) (c : CtxId) : (x.toSeize c).SignallingExact :=
  Line.Silent.signalling ⟨h.drive, h.digitTimer, h.pauseTimer, h.dialToneTimer, rfl, h.classifier⟩ LineState.noConfusion

theorem Line.Silent.toAnswering {x : Line} (h : x.Silent) (c : CtxId) : (x.toAnswering c).SignallingExact :=
  Line.Silent.signalling ⟨h.drive, h.digitTimer, h.pauseTimer, h.dialToneTimer, h.dialToneWait, h.classifier⟩
    LineState.noConfusion

theorem Line.SignallingExact.toGlare {x : Line} (h : x.SignallingExact) (seized : x.state = .seize) :
    x.toGlare.SignallingExact := by
  obtain ⟨drive, digit, pause, -⟩ := h.seized seized
  exact Line.Silent.signalling ⟨drive, digit, pause, rfl, rfl, rfl⟩ LineState.noConfusion

theorem State.Signals.endContext {s : State} (h : s.Signals) (c : CtxId) (o : CallOutcome) :
    (s.endContext c o).Signals := by
  intro l
  rw [State.endContext_line]
  split
  · exact Line.toClearing_signalling _
  · exact h l

theorem State.Signals.endOnLine {s : State} (h : s.Signals) (l : LineId) (o : CallOutcome) : (s.endOnLine l o).Signals := by
  have cleared : (s.clearLine l).Signals := fun k => by
    rw [State.clearLine_line]
    split
    · exact Line.toClearing_signalling _
    · exact h k
  have detached : ∀ c, ((s.clearLine l).detach c o).Signals := fun _ => cleared
  rcases s.endOnLine_cases l o with ⟨-, k⟩ | ⟨c, -, -, ⟨-, -, k⟩ | ⟨-, k⟩⟩ <;> rw [k]
  · exact cleared
  · rcases ((s.clearLine l).detach c o).judgeFailure_cases c l o with ⟨k, -⟩ | ⟨k, -⟩ | ⟨k, -⟩ <;> rw [k]
    · exact (detached c).of_lines (State.enterRetryWait_fields _ c l o).2.1
    · exact (detached c).endContext c _
    · exact (detached c).endContext c _
  · exact (detached c).endContext c o

theorem State.Signals.faultLine {s : State} (h : s.Signals) (l : LineId) : (s.faultLine l).Signals := by
  have faulted : ((s.modLine l Line.toFault).setMeter l none).Signals := h.modLine (Line.toFault_signalling _)
  have queued : ∀ u : State, u.Signals → (u.queueUnsolicited (.lineFault l)).Signals := fun u k => k.of_lines (by simp)
  unfold State.faultLine
  dsimp only
  refine queued _ ?_
  split
  · split
    · rename_i c _ _
      have detached : (((s.modLine l Line.toFault).setMeter l none).detach c .lineFault).Signals := faulted
      exact detached.endContext c _
    · exact faulted
  · exact faulted

theorem State.Signals.glareTurn {s : State} (h : s.Signals) {l : LineId} (seized : (s.line l).state = .seize) :
    (s.glareTurn l).Signals := by
  have rings : (s.modLine l Line.toGlare).Signals := h.modLine ((h l).toGlare seized)
  unfold State.glareTurn
  split
  · split
    · rename_i c _ _
      have given : ((s.modLine l Line.toGlare).modCtx c fun x =>
          { x with currentLine := none, attempts := x.attempts - 1, lastLine := x.prevLine }).Signals := rings
      unfold State.glareReturn
      dsimp only
      split
      · exact given.endContext c _
      · exact given
    · exact rings
  · exact rings

theorem State.Act.signals {s t : State} (act : State.Act R s t) (free : s.FreeListExact) (h : s.Signals) : t.Signals := by
  cases act with
  | lines v moves => exact fun l => (moves l).signalling (h l)
  | leavesFree l f _ _ _ _ signalling => exact h.modLine (signalling (h l))
  | joinsFree l f _ _ _ _ signalling => exact h.modLine (signalling (h l))
  | ends c o _ => exact h.endContext c o
  | sweep => exact State.sweep_induct (P := State.Signals) (fun _ c _ k => k.endContext c _) h
  | endsOnLine l o => exact h.endOnLine l o
  | faults l _ => exact h.faultLine l
  | grant c l _ isFree =>
    have silent : (s.line l).Silent := (h l).silent (by rw [free.onHook isFree]; decide)
    intro k
    by_cases e : k = l
    · subst e; rw [State.grant_line]; exact silent.toSeize c
    · have line : (s.grant c l).line k = s.line k := by unfold State.grant; simp [State.modLine_line_other _ _ _ _ e]
      rw [line]; exact h k
  | glare l seized => exact h.glareTurn seized
  | refuses c x o _ _ _ _ => exact State.Signals.endContext (s := s.modCtx c fun _ => x) h c o
  | accepts c l x _ _ _ _ _ _ _ ringing =>
    have silent : (s.line l).Silent := (h l).silent (by rw [ringing]; decide)
    exact State.Signals.modLine (s := s.modCtx c fun _ => x) h (silent.toAnswering c)
  | dueLost c head =>
    have due : ((s.unschedule c).modCtx c fun x => { x with due := none }).Signals := h
    exact due.endContext c _
  | posted e rest _ =>
    rcases (s.modReport fun w => { w with outbox := rest }).clearPosted_cases e.body with k | ⟨c, -, -, k⟩ <;> rw [k] <;>
      exact h
  | halts k x w v cause _ _ _ =>
    intro l
    have line : (({ s with ctl := k, intake := x, report := w, lines := v } : State).halt cause).line l = v[l].halt :=
      State.map_lines_line { s with ctl := k, intake := x, report := w, lines := v } Line.halt l
    rw [line]; exact Line.halt_signalling _
  | resets cause =>
    intro l
    rw [State.resetBlocks_line]
    exact Line.Silent.signalling ⟨rfl, rfl, rfl, rfl, rfl, rfl⟩ LineState.noConfusion
  | _ => exact h

/-- Settles O8: while lists and free line list are exact, every act keeps the links; while the free line list is, the
signalling. -/
theorem linesStayExact : Obligations.LinesStayExact :=
  ⟨fun _ _ lists free h k => (State.Acts.keeps (P := fun s => s.ListsExact ∧ s.FreeListExact ∧ s.LinesExact)
      (fun act h => ⟨act.listsExact h.1, act.freeListExact h.2.1, act.linesExact h.1 h.2.1 h.2.2⟩) (step_acts k)
      ⟨lists, free, h⟩).2.2,
    fun _ _ free h k => (State.Acts.keeps (P := fun s => s.FreeListExact ∧ s.Signals)
      (fun act h => ⟨act.freeListExact h.1, act.signals h.1 h.2⟩) (step_acts k) ⟨free, h⟩).2⟩

end Sys2Proof.Machine
end

section
/-! PROOF. The queue, the values after a reset, the registers, the judgements of R161 and R162, the battery and the calendar. -/

namespace Sys2Proof.Machine

/-! ## The queue and the state after reset -/

/-- Settles O1: it is the definition of a step with a command waiting. -/
theorem stepRunsFrontCommand : Obligations.StepRunsFrontCommand := fun _ _ _ => step_of_pending rfl

theorem State.reset_ctx (c : CtxId) : State.reset.ctx c = Context.cleared := by
  simp [State.ctx, State.reset]

theorem State.reset_line (l : LineId) : State.reset.line l = Line.atReset false false false false := by
  simp [State.line, State.reset]

theorem State.reset_meter (l : LineId) : State.reset.meter l = none := by
  simp [State.meter, State.reset]

/-- Settles O2: each value as the reset state gives it. -/
theorem resetLeavesStatedValues : Obligations.ResetLeavesStatedValues := by
  refine ⟨State.reset_ctx, rfl, rfl, rfl, fun l => ?_, rfl, rfl, rfl, rfl, rfl, rfl, rfl, rfl, rfl, rfl⟩
  rw [State.reset_line]
  exact ⟨rfl, rfl, rfl, rfl, rfl, rfl, rfl, rfl, rfl, State.reset_meter l⟩

theorem State.reset_listsExact : State.reset.ListsExact := by
  refine ⟨⟨List.nodup_nil, List.nodup_nil, fun c => ?_, fun c => ?_⟩, List.nodup_nil, fun c => ?_, fun c => ?_, .nil⟩ <;>
    rw [State.reset_ctx] <;> simp [State.reset, Context.cleared]

theorem State.reset_linked : State.reset.Linked where
  offHook l := by rw [State.reset_line]; rfl
  names l c held := by rw [State.reset_line] at held; cases held
  holds c onLine := by rw [State.reset_ctx] at onLine; cases onLine
  meters l e he := by rw [State.reset_meter] at he; cases he

theorem State.reset_policiesInRange : State.reset.PoliciesInRange := by
  intro i p present
  have absent : State.reset.retained.policies[i] = none := by simp [State.reset, Retained.empty]
  rw [absent] at present
  cases present

theorem State.reset_withinLimits : State.reset.WithinLimits := fun c => by
  rw [State.reset_ctx]; exact .fresh rfl (.inl rfl)

/-- Settles O3: with every context FREE, every line IDLE and the outbox empty, each invariant holds at once. -/
theorem resetMeetsInvariants : Obligations.ResetMeetsInvariants := by
  obtain ⟨attempts, snapshots⟩ := State.withinLimits_iff.mp State.reset_withinLimits
  refine ⟨rfl, ⟨allLines_nodup, fun l => ⟨fun _ => ?_, fun _ => mem_allLines l⟩⟩, State.reset_listsExact,
    ⟨Nat.zero_le _, Nat.zero_le _, Nat.zero_le _, fun c => ?_⟩, State.linesExact_iff.mpr fun _ => State.reset_linked,
    attempts, State.reset_policiesInRange, snapshots, fun c d active => ?_, fun l => ?_, fun _ => ⟨?_, ?_, ?_⟩,
    ⟨Nat.le_refl 1, fun k => absurd rfl k, fun _ _ => ⟨Nat.one_pos, HoldTimer.noConfusion⟩⟩, ?_⟩
  · rw [State.reset_line]; rfl
  · rw [State.reset_ctx]; rfl
  · rw [State.reset_ctx] at active; cases active
  · rw [State.reset_line]
    exact Line.Silent.signalling ⟨rfl, rfl, rfl, rfl, rfl, rfl⟩ LineState.noConfusion
  · exact fun _ => (by decide : (Ring.initial.cachedProducer - Ring.initial.consumer).toNat ≤ Ring.initial.size)
  · exact fun _ => (by decide : (Ring.initial.cachedProducer - Ring.initial.consumer).toNat ≤ Ring.initial.size)
  · exact fun adopted => Bool.noConfusion adopted
  · unfold Retained.Sound; decide +kernel

end Sys2Proof.Machine
end

section
/-! PROOF. The registers, the judgements of R161 and R162, the battery and the calendar. -/

namespace Sys2Proof.Machine

/-! ## The fields of STATE (R170) -/

/-- The fields of STATE as one number. -/
def State.stateNumber (s : State) : Nat :=
  s.ctl.engine.code + 16 * s.ctl.error.code + 256 * s.ctl.urgentFault.toNat + 512 * s.ctl.routineFault.toNat
    + 65536 * s.ctl.status.bits + 2097152 * s.retained.calendar.valid.toNat + 16777216 * s.ctl.cause.code

theorem EngineState.code_lt (e : EngineState) : e.code < 8 := by cases e <;> decide

theorem ErrorCode.code_lt (e : ErrorCode) : e.code < 16 := by cases e <;> decide

theorem ResetCause.code_lt (c : ResetCause) : c.code < 4 := by cases c <;> decide

/-- A run of bits of STATE is the quotient of its number. -/
theorem State.readRegister_state_extract (s : State) (start len : Nat) (fits : start + len ≤ 32) :
    (s.readRegister 0).extractLsb' start len = BitVec.ofNat len (s.stateNumber / 2 ^ start) := by
  show (BitVec.ofNat 32 s.stateNumber).extractLsb' start len = _
  apply BitVec.eq_of_toNat_eq
  rw [BitVec.extractLsb'_toNat, BitVec.toNat_ofNat, BitVec.toNat_ofNat, Nat.shiftRight_eq_div_pow]
  have split : (2 : Nat) ^ 32 = 2 ^ start * 2 ^ (32 - start) := by rw [← pow_add]; congr 1; omega
  rw [split, Nat.mod_mul_right_div_self, Nat.mod_mod_of_dvd _ (pow_dvd_pow 2 (by omega))]

theorem State.readRegister_state_bit (s : State) (i : Nat) (fits : i < 32) :
    (s.readRegister 0).getLsbD i = decide (s.stateNumber / 2 ^ i % 2 = 1) := by
  show (BitVec.ofNat 32 s.stateNumber).getLsbD i = _
  rw [BitVec.getLsbD_ofNat, Nat.testBit_eq_decide_div_mod_eq]
  simp [fits]

/-- A run of bits that hold one field of STATE. -/
theorem State.readRegister_state_field {s : State} {start len k : Nat} (fits : start + len ≤ 32)
    (field : s.stateNumber / 2 ^ start % 2 ^ len = k) : (s.readRegister 0).extractLsb' start len = BitVec.ofNat len k := by
  rw [s.readRegister_state_extract start len fits]
  apply BitVec.eq_of_toNat_eq
  rw [BitVec.toNat_ofNat, BitVec.toNat_ofNat, ← field, Nat.mod_mod]

theorem State.readRegister_state_flag {s : State} {i : Nat} {b : Bool} (fits : i < 32)
    (field : s.stateNumber / 2 ^ i % 2 = b.toNat) : (s.readRegister 0).getLsbD i = b := by
  rw [s.readRegister_state_bit i fits, field]
  cases b <;> rfl

section
variable (s : State)

/-- Where each field of STATE stands (R170). -/
theorem State.stateNumber_fields :
    s.stateNumber / 2 ^ 0 % 2 ^ 3 = s.ctl.engine.code ∧ s.stateNumber / 2 ^ 3 % 2 ^ 1 = 0
      ∧ s.stateNumber / 2 ^ 4 % 2 ^ 4 = s.ctl.error.code ∧ s.stateNumber / 2 ^ 8 % 2 = s.ctl.urgentFault.toNat
      ∧ s.stateNumber / 2 ^ 9 % 2 = s.ctl.routineFault.toNat ∧ s.stateNumber / 2 ^ 10 % 2 ^ 6 = 0
      ∧ s.stateNumber / 2 ^ 21 % 2 = s.retained.calendar.valid.toNat ∧ s.stateNumber / 2 ^ 22 % 2 ^ 2 = 0
      ∧ s.stateNumber / 2 ^ 24 % 2 ^ 2 = s.ctl.cause.code ∧ s.stateNumber / 2 ^ 26 % 2 ^ 6 = 0 := by
  have engine := s.ctl.engine.code_lt
  have error := s.ctl.error.code_lt
  have cause := s.ctl.cause.code_lt
  have urgent := s.ctl.urgentFault.toNat_lt
  have routine := s.ctl.routineFault.toNat_lt
  have valid := s.retained.calendar.valid.toNat_lt
  have prefixes := s.ctl.status.prefixes.toNat_lt
  have bands := s.ctl.status.bands.toNat_lt
  have accounts := s.ctl.status.accounts.toNat_lt
  have policies := s.ctl.status.policies.toNat_lt
  have calendar := s.ctl.status.calendar.toNat_lt
  have small : s.ctl.engine.code ≠ 6 ∧ s.ctl.engine.code ≠ 7 := by cases s.ctl.engine <;> decide
  unfold State.stateNumber TableStatus.bits
  refine ⟨?_, ?_, ?_, ?_, ?_, ?_, ?_, ?_, ?_, ?_⟩ <;> omega

/-- Where the table statuses stand (R170). -/
theorem State.stateNumber_statuses :
    s.stateNumber / 2 ^ 16 % 2 = s.ctl.status.prefixes.toNat ∧ s.stateNumber / 2 ^ 17 % 2 = s.ctl.status.bands.toNat
      ∧ s.stateNumber / 2 ^ 18 % 2 = s.ctl.status.accounts.toNat
      ∧ s.stateNumber / 2 ^ 19 % 2 = s.ctl.status.policies.toNat
      ∧ s.stateNumber / 2 ^ 20 % 2 = s.ctl.status.calendar.toNat := by
  have engine := s.ctl.engine.code_lt
  have error := s.ctl.error.code_lt
  have urgent := s.ctl.urgentFault.toNat_lt
  have routine := s.ctl.routineFault.toNat_lt
  have prefixes := s.ctl.status.prefixes.toNat_lt
  have bands := s.ctl.status.bands.toNat_lt
  have accounts := s.ctl.status.accounts.toNat_lt
  have policies := s.ctl.status.policies.toNat_lt
  have calendar := s.ctl.status.calendar.toNat_lt
  unfold State.stateNumber TableStatus.bits
  refine ⟨?_, ?_, ?_, ?_, ?_⟩ <;> omega

end

/-! ## Writes to the registers -/

theorem State.registerWrite_of_inReset {s : State} (effect : State → State) (h : s.inReset = true) :
    s.registerWrite effect = s := if_pos h

theorem decodeControl_eq (stores : HostStores) (first : OrderRing) (bus : StartBus) (v : Word) :
    (v.getLsbD 3 = true → decodeControl stores first bus v = .reset)
      ∧ (v.getLsbD 3 = false →
        (v.extractLsb' 0 3 = 1 → decodeControl stores first bus v = .start stores first bus)
          ∧ (v.extractLsb' 0 3 = 2 → decodeControl stores first bus v = .quiesce)
          ∧ (v.extractLsb' 0 3 = 4 → decodeControl stores first bus v = .abort)
          ∧ (v.extractLsb' 0 3 ∉ [1, 2, 4] → decodeControl stores first bus v = .badCommand v)) := by
  have bit : ∀ i, i < 3 → v.getLsbD i = (v.extractLsb' 0 3).getLsbD i := fun i lt => by simp [lt]
  unfold decodeControl isBadCommand
  refine ⟨fun reset => if_pos reset, fun reset => ?_⟩
  rw [reset, bit 0 (by decide), bit 1 (by decide), bit 2 (by decide)]
  generalize v.extractLsb' 0 3 = bits
  refine ⟨?_, ?_, ?_, fun other => ?_⟩
  · rintro rfl; rfl
  · rintro rfl; rfl
  · rintro rfl; rfl
  · have bad : (!bits.getLsbD 0 || bits.getLsbD 1 || bits.getLsbD 2)
        && (bits.getLsbD 0 || !bits.getLsbD 1 || bits.getLsbD 2)
        && (bits.getLsbD 0 || bits.getLsbD 1 || !bits.getLsbD 2) = true := by
      revert other; revert bits; decide
    simp only [Bool.and_eq_true, Bool.or_eq_true, Bool.not_eq_true'] at bad
    obtain ⟨⟨noStart, noQuiesce⟩, noAbort⟩ := bad
    revert noStart noQuiesce noAbort
    cases bits.getLsbD 0 <;> cases bits.getLsbD 1 <;> cases bits.getLsbD 2 <;> simp

theorem mem_decodePost (stores : HostStores) (v : Word) (i : Instr) :
    i ∈ decodePost stores v ↔
      (v.getLsbD 0 = true ∧ i = .orderRingPost stores .urgent false)
        ∨ (v.getLsbD 1 = true ∧ i = .orderRingPost stores .routine false)
        ∨ (v.getLsbD 2 = true ∧ i = .reportPostBit stores false) := by
  have single : ∀ (b : Bool) (j : Instr), i ∈ (if b then [j] else []) ↔ b = true ∧ i = j := by
    intro b j; cases b <;> simp
  unfold decodePost
  rw [List.mem_append, List.mem_append, single, single, single, or_assoc]

theorem State.seizeRelay_iff (s : State) (l : LineId) : s.seizeRelay l = true
    ↔ (s.line l).state ∈ [.seize, .dialing, .awaitAnswer, .connected, .answering, .connectedIn] := by
  unfold State.seizeRelay
  cases (s.line l).state <;> decide

/-- Settles O16: each field of STATE by its place in the number, the writes by the reset, the decoders by their bits. -/
theorem registersReadAndWrite : Obligations.RegistersReadAndWrite := by
  intro v s
  obtain ⟨engine, gap3, error, urgent, routine, gap10, valid, gap22, cause, gap26⟩ := s.stateNumber_fields
  obtain ⟨prefixes, bands, accounts, policies, calendar⟩ := s.stateNumber_statuses
  refine ⟨?_, State.readRegister_state_field (by decide) gap3, ?_, State.readRegister_state_flag (by decide) urgent,
    State.readRegister_state_flag (by decide) routine, State.readRegister_state_field (by decide) gap10,
    State.readRegister_state_flag (by decide) prefixes, State.readRegister_state_flag (by decide) bands,
    State.readRegister_state_flag (by decide) accounts, State.readRegister_state_flag (by decide) policies,
    State.readRegister_state_flag (by decide) calendar, State.readRegister_state_flag (by decide) valid,
    State.readRegister_state_field (by decide) gap22, ?_, State.readRegister_state_field (by decide) gap26, ?_, ?_, rfl, rfl,
    rfl, fun active => ?_, fun reset => ⟨fun i mem => ?_, fun stores r bus e i mem => ?_⟩, rfl,
    fun stores first bus => decodeControl_eq stores first bus v, fun stores i => mem_decodePost stores v i,
    fun l => ⟨s.seizeRelay_iff l, rfl, fun off => ?_, fun k on => ?_⟩⟩
  · rw [State.readRegister_state_field (by decide) engine]
    cases s.ctl.engine <;> rfl
  · rw [State.readRegister_state_field (by decide) error]
    cases s.ctl.error <;> rfl
  · rw [State.readRegister_state_field (by decide) cause]
    cases s.ctl.cause <;> rfl
  · rw [State.readRegister_signal]
    cases s.report.sigPending <;> rfl
  · rw [State.readRegister_signal]
    cases s.report.sigPending <;> rfl
  · exact congrArg Host.Outcome.next (State.registerWrite_of_not_inReset _ active)
  · simp only [List.mem_cons, List.not_mem_nil, or_false] at mem
    rcases mem with rfl | rfl | rfl | rfl | rfl | rfl <;>
      exact congrArg Host.Outcome.next (State.registerWrite_of_inReset _ reset)
  · have reset' : (s.hostStores stores).inReset = true := reset
    simp only [List.mem_cons, List.not_mem_nil, or_false] at mem
    rcases mem with rfl | rfl | rfl <;>
      exact congrArg Host.Outcome.next (State.registerWrite_of_inReset _ reset')
  · unfold State.digitCode; rw [off]
  · unfold State.digitCode; rw [on]

/-! ## Commands that are not accepted -/

section
variable {s : State}

theorem State.takeStart_of_refused (first : OrderRing) (bus : StartBus)
    (h : s.ctl.engine ∈ [.checking, .running, .draining, .aborting]) : s.takeStart first bus = s.setError .wrongState := by
  unfold State.takeStart
  simp only [List.mem_cons, List.not_mem_nil, or_false] at h
  rcases h with h | h | h | h <;> rw [h]

theorem State.takeQuiesce_of_refused (h : s.ctl.engine ∈ [.checking, .ready, .draining, .aborting]) :
    s.takeQuiesce = s.setError .wrongState := by
  unfold State.takeQuiesce
  simp only [List.mem_cons, List.not_mem_nil, or_false] at h
  rcases h with h | h | h | h <;> rw [h]

theorem State.takeAbort_of_refused (h : s.ctl.engine ∈ [.checking, .ready, .aborting]) :
    s.takeAbort = s.setError .wrongState := by
  unfold State.takeAbort
  simp only [List.mem_cons, List.not_mem_nil, or_false] at h
  rcases h with h | h | h <;> rw [h]

/-- In HALTED no command of CONTROL but RESET is looked at (R158). -/
theorem State.takes_of_halted (h : s.ctl.engine = .halted) (first : OrderRing) (bus : StartBus) :
    s.takeStart first bus = s ∧ s.takeQuiesce = s ∧ s.takeAbort = s ∧ s.takeBadCommand = s := by
  unfold State.takeStart State.takeQuiesce State.takeAbort State.takeBadCommand
  rw [h]
  exact ⟨rfl, rfl, rfl, rfl⟩

end

theorem exec_start_of_not_inReset {s : State} (active : s.inReset = false) (stores : HostStores) (first : OrderRing)
    (bus : StartBus) : exec (.start stores first bus) s = .next ((s.withStores stores).takeStart first bus) :=
  congrArg Host.Outcome.next (State.registerWrite_of_not_inReset (s := s.hostStores stores) _ active)

theorem exec_quiesce_of_not_inReset {s : State} (active : s.inReset = false) : exec .quiesce s = .next s.takeQuiesce :=
  congrArg Host.Outcome.next (State.registerWrite_of_not_inReset _ active)

theorem exec_abort_of_not_inReset {s : State} (active : s.inReset = false) : exec .abort s = .next s.takeAbort :=
  congrArg Host.Outcome.next (State.registerWrite_of_not_inReset _ active)

theorem exec_badCommand_of_not_inReset {s : State} (active : s.inReset = false) (v : Word) :
    exec (.badCommand v) s = .next s.takeBadCommand :=
  congrArg Host.Outcome.next (State.registerWrite_of_not_inReset _ active)

/-- Settles O17: the engine state decides, before anything else is looked at. -/
theorem refusedCommandsSetErrorOnly : Obligations.RefusedCommandsSetErrorOnly := by
  intro stores first bus v s active
  rw [exec_start_of_not_inReset active, exec_quiesce_of_not_inReset active, exec_abort_of_not_inReset active,
    exec_badCommand_of_not_inReset active]
  refine ⟨fun h => ?_, fun h => ?_, fun h => ?_, fun h => ?_, fun h => ?_⟩
  · rw [State.takeStart_of_refused (s := s.withStores stores) first bus h]; rfl
  · rw [State.takeQuiesce_of_refused h]; rfl
  · rw [State.takeAbort_of_refused h]; rfl
  · unfold State.takeBadCommand; rw [if_neg h]; rfl
  · obtain ⟨-, quiesce, abort, bad⟩ := State.takes_of_halted h first bus
    rw [(State.takes_of_halted (s := s.withStores stores) h first bus).1, quiesce, abort, bad]
    exact ⟨rfl, rfl, rfl, rfl⟩

/-! ## The end of the winding down -/

theorem State.anyActive_eq_false {s : State} : s.anyActive = false ↔ ∀ c : CtxId, (s.ctx c).state.isActive = false := by
  simp [State.anyActive, allContexts]

theorem LineState.outbound_eq_false {st : LineState} :
    st.outbound = false ↔ st ∉ [.seize, .dialing, .awaitAnswer, .connected] := by
  cases st <;> decide

theorem State.drained_iff {s : State} : s.drained = true ↔ s.report.outbox = []
    ∧ (∀ c : CtxId, (s.ctx c).state.isActive = false)
    ∧ ∀ l : LineId, (s.line l).state ∉ [.seize, .dialing, .awaitAnswer, .connected] := by
  have lines : (allLines.any fun l => (s.line l).state.outbound) = false
      ↔ ∀ l : LineId, (s.line l).state ∉ [.seize, .dialing, .awaitAnswer, .connected] := by
    rw [List.any_eq_false]
    exact ⟨fun h l => LineState.outbound_eq_false.mp (Bool.eq_false_iff.mpr (h l (mem_allLines l))),
      fun h l _ => Bool.eq_false_iff.mp (LineState.outbound_eq_false.mpr (h l))⟩
  unfold State.drained
  rw [Bool.and_eq_true, Bool.and_eq_true, Bool.not_eq_true', Bool.not_eq_true', State.anyActive_eq_false, lines,
    List.isEmpty_iff]
  tauto

/-- Settles O25: both judgements are their conditions. -/
theorem windingDownEndsInReady : Obligations.WindingDownEndsInReady := by
  intro s
  refine ⟨fun draining drained => if_pos ⟨draining, State.drained_iff.mpr drained⟩, fun h => if_neg fun k => ?_,
    fun aborting empty => if_pos ⟨aborting, by rw [empty]; rfl⟩, fun h => if_neg fun k => ?_⟩
  · exact h.elim (absurd k.1) (absurd (State.drained_iff.mp k.2))
  · exact h.elim (absurd k.1) (absurd (List.isEmpty_iff.mp k.2))

/-! ## The battery and the calendar -/

/-- Settles O28: VDD decides between a loss at once and one at its next fall. -/
theorem batteryLossFreesTheContent : Obligations.BatteryLossFreesTheContent := by
  intro s
  refine ⟨fun above => ⟨{ s with power := { s.power with vbatPresent := false } }, ?_, rfl, fun cut => ?_⟩, fun below => ?_⟩
  · show Host.Outcome.next s.batteryLost = _
    unfold State.batteryLost
    rw [if_pos above]
  · exact ⟨_, _, rfl, rfl⟩
  · show Host.Outcome.next s.batteryLost = _
    unfold State.batteryLost
    rw [below]
    rfl

theorem Calendar.advance_eq {k : Calendar} (h : k.second ≤ 86399) : k.advance = { k with
    second := if k.second < 86399 then k.second + 1 else 0, ms := 0
    day := if k.second < 86399 then k.day else BitVec.ofNat 16 (k.day.toNat + 1) } := by
  have day : k.day + 1 = BitVec.ofNat 16 (k.day.toNat + 1) := by
    apply BitVec.eq_of_toNat_eq; simp [BitVec.toNat_add]
  unfold Calendar.advance
  by_cases last : k.second < 86399
  · rw [if_neg (by omega), if_pos last, if_pos last]
  · rw [if_pos (by omega), if_neg last, if_neg last, day]

/-- Settles O54: a supply moves the calendar on, its check word with it. -/
theorem calendarAdvancesOneSecond : Obligations.CalendarAdvancesOneSecond := by
  intro s
  refine ⟨fun supply second => ⟨s.modRetained fun t => t.moveCalendar t.calendar.advance, ?_, ?_, ?_, rfl⟩,
    fun noVdd noBattery => ?_⟩
  · show Host.Outcome.next s.calendarAdvances = _
    unfold State.calendarAdvances State.calendarPowered
    rw [if_pos (by simpa using supply)]
  · rw [← Calendar.advance_eq second]; rfl
  · exact Retained.moveCalendar_sound _ _
  · show Host.Outcome.next s.calendarAdvances = _
    unfold State.calendarAdvances State.calendarPowered
    rw [noVdd, noBattery]
    rfl

end Sys2Proof.Machine
end

section
/-! PROOF. The entry to HALTED, the bits of POST, the resets, the check of the retained tables. -/

namespace Sys2Proof.Machine

/-! ## The entry to HALTED and UNSOLICITED reports, as the statements have them -/

theorem State.halt_line (s : State) (cause : ErrorCode) (l : LineId) : (s.halt cause).line l = (s.line l).halt :=
  State.map_lines_line s Line.halt l

theorem State.halt_meter (s : State) (cause : ErrorCode) (l : LineId) : (s.halt cause).meter l = none := by
  show (Vector.replicate 8 (none : Option MeterEntry))[l] = none
  simp

theorem ReportWriter.halt_eq (r : ReportWriter) : r.halt = { r with
    sigPending := true, holdTimer := .stopped, unsignalled := if r.sigPending then r.unsignalled else 0 } := by
  cases r with
  | mk adopted base size header producer cached outbox missed holdTime batch pending timer count =>
    cases pending <;> rfl

/-- The entry to HALTED is what the statements call it (R166). -/
theorem State.halt_entersHalted (s : State) (cause : ErrorCode) : s.EntersHalted (s.halt cause) cause where
  ctl := rfl
  lines l := ⟨by rw [State.halt_line]; rfl, s.halt_meter cause l⟩
  free := rfl
  report := s.report.halt_eq
  rest := rfl

/-- An UNSOLICITED report changes the report writer alone (R147). -/
theorem State.queueUnsolicited_eq (s : State) (kind : UnsolicitedKind) :
    s.queueUnsolicited kind = { s with report := s.afterUnsolicited kind } := by
  unfold State.queueUnsolicited State.afterUnsolicited State.unsolicitedRoom
  by_cases room : s.report.outbox.countP OutboxEntry.isUnsolicited < 8
  · rw [if_pos (show _ < Config.quota from room), if_pos (decide_eq_true room)]; rfl
  · rw [if_neg (show ¬ _ < Config.quota from room), if_neg (by simpa using room)]; rfl

/-! ## The bits of POST -/

theorem exec_orderRingPost_of_not_inReset {s : State} (active : s.inReset = false) (stores : HostStores) (r : OrderRing)
    (e : Bool) : exec (.orderRingPost stores r e) s = .next ((s.withStores stores).takeOrderPost r e) :=
  congrArg Host.Outcome.next (State.registerWrite_of_not_inReset (s := s.hostStores stores) _ active)

theorem exec_reportPostBit_of_not_inReset {s : State} (active : s.inReset = false) (stores : HostStores) (e : Bool) :
    exec (.reportPostBit stores e) s = .next ((s.withStores stores).takeReportBit e) :=
  congrArg Host.Outcome.next (State.registerWrite_of_not_inReset (s := s.hostStores stores) _ active)

/-- A ring fault (R27): the ring FAULTED, its flag set, RING_FAULT handed to the report writer. -/
theorem State.faultRing_eq (s : State) (r : OrderRing) :
    s.faultRing r = { s.setRing r { s.ring r with state := .faulted } with
      ctl := { s.ctl with
        urgentFault := s.ctl.urgentFault || decide (r = .urgent)
        routineFault := s.ctl.routineFault || decide (r = .routine) }
      report := s.afterUnsolicited (.ringFault r) } := by
  unfold State.faultRing
  rw [State.queueUnsolicited_eq]
  cases r
  · have flag : (s.ctl.urgentFault || decide (OrderRing.urgent = .urgent)) = true := by simp
    have other : (s.ctl.routineFault || decide (OrderRing.urgent = .routine)) = s.ctl.routineFault := by simp
    rw [flag, other]
    rfl
  · have flag : (s.ctl.routineFault || decide (OrderRing.routine = .routine)) = true := by simp
    have other : (s.ctl.urgentFault || decide (OrderRing.routine = .urgent)) = s.ctl.urgentFault := by simp
    rw [flag, other]
    rfl

theorem State.takeOrderPost_eq {s : State} {r : OrderRing} (running : s.ctl.engine = .running)
    (sound : (s.ring r).state ≠ .faulted) : s.takeOrderPost r false = s.judgePost r := by
  unfold State.takeOrderPost
  rw [if_pos ⟨running, sound⟩]
  rfl

theorem State.takeOrderPost_of_idle {s : State} {r : OrderRing} (e : Bool)
    (idle : s.ctl.engine ≠ .running ∨ (s.ring r).state = .faulted) : s.takeOrderPost r e = s :=
  if_neg fun k => idle.elim (absurd k.1) k.2

theorem tooFarAhead_iff {producer consumer : Half} {size : Nat} :
    tooFarAhead producer consumer size = true ↔ size < (producer - consumer).toNat := decide_eq_true_iff

/-- The producer index judged (R26). -/
theorem State.judgePost_eq (s : State) (r : OrderRing) : s.judgePost r =
    if (s.ring r).size < (s.readProducer (s.ring r).header - (s.ring r).consumer).toNat then s.faultRing r
    else s.setRing r { s.ring r with
      cachedProducer := s.readProducer (s.ring r).header
      state := if (s.ring r).state = .empty ∧ s.readProducer (s.ring r).header ≠ (s.ring r).consumer then .active
        else (s.ring r).state } := by
  unfold State.judgePost
  simp only [tooFarAhead_iff]

/-- Settles O20: the producer index is judged where the bit acts. -/
theorem orderPostReadsProducer : Obligations.OrderPostReadsProducer := by
  intro stores r s active
  rw [exec_orderRingPost_of_not_inReset active]
  refine ⟨fun idle => congrArg Host.Outcome.next (State.takeOrderPost_of_idle (s := s.withStores stores) false idle),
    fun running sound near => congrArg Host.Outcome.next ?_, fun running sound far => congrArg Host.Outcome.next ?_⟩
  · rw [State.takeOrderPost_eq (s := s.withStores stores) running sound, State.judgePost_eq]
    exact if_neg (Nat.not_lt.mpr near)
  · rw [State.takeOrderPost_eq (s := s.withStores stores) running sound, State.judgePost_eq]
    refine (if_pos far).trans ?_
    rw [State.faultRing_eq]
    rfl

theorem EngineState.posts_iff {e : EngineState} : e.posts = true ↔ e ∈ [.ready, .running, .draining, .aborting] := by
  cases e <;> decide

theorem State.takeReportBit_of_not_acts {s : State} (e : Bool)
    (h : ¬(s.ctl.engine ∈ [.ready, .running, .draining, .aborting] ∧ s.report.adopted = true)) :
    s.takeReportBit e = s := by
  unfold State.takeReportBit
  refine if_neg fun k => h ?_
  rw [Bool.and_eq_true, EngineState.posts_iff] at k
  exact k

theorem State.takeReportBit_of_acts {s : State} (e : Bool)
    (h : s.ctl.engine ∈ [.ready, .running, .draining, .aborting] ∧ s.report.adopted = true) :
    s.takeReportBit e =
      if e then s.halt .memoryFault
      else if s.report.accepts (s.readConsumer s.report.header) then
        s.modReport fun r => { r with cachedConsumer := s.readConsumer s.report.header }
      else s.halt .badReportIndex := by
  unfold State.takeReportBit
  refine if_pos ?_
  rw [Bool.and_eq_true, EngineState.posts_iff]
  exact h

/-- Settles O21: the consumer index is judged where the bit acts. -/
theorem reportBitTakesConsumer : Obligations.ReportBitTakesConsumer := by
  intro stores s active
  rw [exec_reportPostBit_of_not_inReset active]
  refine ⟨fun idle => congrArg Host.Outcome.next (State.takeReportBit_of_not_acts (s := s.withStores stores) false idle),
    fun acts accepted => congrArg Host.Outcome.next ?_,
    fun acts refused => ⟨_, congrArg Host.Outcome.next ?_, (s.withStores stores).halt_entersHalted _⟩⟩
  · rw [State.takeReportBit_of_acts (s := s.withStores stores) false acts]
    exact if_pos (decide_eq_true accepted)
  · rw [State.takeReportBit_of_acts (s := s.withStores stores) false acts]
    exact if_neg fun k => refused (of_decide_eq_true k)

/-! ## The resets -/

theorem State.resetBlocks_meter (s : State) (cause : ResetCause) (l : LineId) : (s.resetBlocks cause).meter l = none := by
  show (Vector.replicate 8 (none : Option MeterEntry))[l] = none
  simp

theorem State.resetBlocks_blocksReset (s : State) (cause : ResetCause) : s.BlocksReset (s.resetBlocks cause) cause where
  ctl := rfl
  intake := rfl
  ctxs := s.resetBlocks_ctx cause
  waiting := rfl
  free := rfl
  schedule := rfl
  uptime := ⟨rfl, rfl⟩
  meters := s.resetBlocks_meter cause
  report := rfl
  rest := ⟨rfl, rfl, rfl, rfl⟩

/-- Neither the lines nor the supplies are among what `State.BlocksReset` speaks of. -/
theorem State.BlocksReset.of_lines {s t : State} {cause : ResetCause} (h : s.BlocksReset t cause) (p : Power)
    (v : Vector Line 8) : s.BlocksReset { t with power := p, lines := v } cause :=
  ⟨h.ctl, h.intake, h.ctxs, h.waiting, h.free, h.schedule, h.uptime, h.meters, h.report, h.rest⟩

theorem State.endReset_of_inReset {s : State} (h : s.inReset = true) : s.endReset = s := if_pos h

theorem State.endReset_of_not_inReset {s : State} (h : s.inReset = false) :
    s.endReset = { s with lines := s.lines.map Line.startQualifiers } := by
  unfold State.endReset
  rw [h]
  rfl

/-- The end of a reset touches the lines alone, and those only when no reset is left in force (R59, R92, R163). -/
theorem State.endReset_spec (s : State) : s.endReset = { s with lines := s.endReset.lines }
    ∧ ∀ l, s.endReset.line l = if s.inReset then s.line l else (s.line l).timingInputs := by
  cases h : s.inReset
  · rw [State.endReset_of_not_inReset h]
    exact ⟨rfl, fun l => State.map_lines_line s Line.startQualifiers l⟩
  · rw [State.endReset_of_inReset h]
    exact ⟨rfl, fun l => rfl⟩

theorem State.cutAccess_eq (s : State) (cut : PowerCut) : s.cutAccess cut = s.cutBy cut := by
  cases cut with
  | nothing => unfold State.cutAccess State.cutBy; cases s.report.outbox <;> rfl
  | record landed => unfold State.cutAccess State.cutBy; cases s.report.outbox <;> rfl
  | table which =>
    have writes : s.writesTable which = true ↔ which = .calendar ∨ s.inReset = false := by
      unfold State.writesTable; cases s.inReset <;> simp
    unfold State.cutAccess State.cutBy
    simp only [writes]

/-- A power-on reset works on what the cut access and the supplies have left (R163). -/
theorem State.powerCrosses_eq (s : State) (vdd : VddCrossing) :
    s.powerCrosses vdd = { (s.afterCut vdd).resetBlocks (if vdd.above then .power else s.ctl.cause) with
      power := { s.power with
        powerReset := true, vddAbove := vdd.above, stableLeft := if vdd.above then some 20 else none
        roseSinceReady := s.power.roseSinceReady || vdd.above } } := by
  unfold State.afterCut
  dsimp only
  rw [State.cutAccess_eq]
  rcases s.powerCrosses_cases vdd with ⟨falls, noBattery, k⟩ | ⟨held, k⟩ <;> rw [k]
  · rw [if_neg (by simp [falls, noBattery])]; rfl
  · rw [if_pos held]; rfl

theorem State.afterCut_line (s : State) (vdd : VddCrossing) (l : LineId) : (s.afterCut vdd).line l = s.line l := by
  have lines : (s.cutAccess vdd.cut).lines = s.lines := by rw [State.cutAccess_eq]; exact (s.cutBy_keeps vdd.cut).2.2.1
  unfold State.afterCut
  dsimp only
  split <;> exact State.line_congr lines l

theorem exec_reset_of_not_inReset {s : State} (active : s.inReset = false) : exec .reset s = .next s.softReset :=
  congrArg Host.Outcome.next (State.registerWrite_of_not_inReset _ active)

/-- Settles O26: the resets are the blocks' reset values, their ends the start of the qualifiers. -/
theorem resetsActAndEnd : Obligations.ResetsActAndEnd := by
  intro s
  refine ⟨fun active => ⟨s.softReset, exec_reset_of_not_inReset active, ?_⟩,
    fun reset => congrArg Host.Outcome.next (State.registerWrite_of_inReset _ reset),
    ⟨s.resetnFalls, rfl, (s.resetBlocks_blocksReset _).of_lines _ _, rfl,
      fun l => State.resetBlocks_line s (s.causeOr .pin) l⟩,
    fun vdd => ⟨s.powerCrosses vdd, rfl, ?_⟩, fun reset above => ⟨s.powerStable, rfl, ?_⟩, fun done => ?_,
    fun low => ⟨s.resetnRises, rfl, ?_⟩, fun high => ?_⟩
  · have cause : s.causeOr .soft = if s.power.roseSinceReady then .power else .soft := rfl
    have quiet : (s.resetBlocks (s.causeOr .soft)).inReset = false := active
    unfold State.softReset
    rw [State.endReset_of_not_inReset quiet, ← cause]
    refine ⟨(s.resetBlocks_blocksReset _).of_lines _ _, rfl, fun l => ?_⟩
    rw [← State.resetBlocks_line s (s.causeOr .soft) l]
    exact State.map_lines_line _ Line.startQualifiers l
  · rw [State.powerCrosses_eq]
    refine ⟨((s.afterCut vdd).resetBlocks_blocksReset _).of_lines _ _, rfl, fun l => ?_⟩
    rw [← State.afterCut_line s vdd l]
    exact State.resetBlocks_line (s.afterCut vdd) (if vdd.above then .power else s.ctl.cause) l
  · unfold State.powerStable
    rw [if_pos ⟨reset, above⟩]
    obtain ⟨rest, lines⟩ := State.endReset_spec
      { s with power := { s.power with powerReset := false, stableLeft := none } }
    exact ⟨rest, lines⟩
  · show Host.Outcome.next s.powerStable = _
    unfold State.powerStable
    rw [if_neg fun k => by rcases done with h | h <;> simp [h] at k]
  · unfold State.resetnRises
    rw [if_pos low]
    obtain ⟨rest, lines⟩ := State.endReset_spec { s with power := { s.power with resetnLow := false } }
    refine ⟨rest, fun l => (lines l).trans ?_⟩
    simp only [State.inReset, Bool.or_false]
    rfl
  · show Host.Outcome.next s.resetnRises = _
    unfold State.resetnRises
    rw [high]
    rfl

/-! ## The check of the retained tables -/

/-- The content that a check leaves: the table while it is sound, else the empty one. -/
def keptIf {α : Type} (ok : Bool) (content empty : α) : α := if ok then content else empty

/-- A table kept while it is sound, else cleared with a new check word, is sound (R165). -/
theorem isSound_kept {α : Type} (words : α → List Half) (content empty : α) (check : Half) :
    isSound (words (keptIf (isSound (words content) check) content empty))
      (keptIf (isSound (words content) check) check (checkOf (words empty))) = true := by
  unfold keptIf
  cases h : isSound (words content) check <;> simp [h]

section
variable (t : Retained)

theorem Retained.checkPrefixes_eq : t.checkPrefixes =
    ({ t with
        prefixes := keptIf (isSound (prefixTableWords t.prefixes) t.prefixCheck) t.prefixes (Vector.replicate 64 none)
        prefixCheck := keptIf (isSound (prefixTableWords t.prefixes) t.prefixCheck) t.prefixCheck
          (checkOf (prefixTableWords (Vector.replicate 64 none))) },
      !isSound (prefixTableWords t.prefixes) t.prefixCheck) := by
  unfold Retained.checkPrefixes keptIf
  cases isSound (prefixTableWords t.prefixes) t.prefixCheck <;> rfl

theorem Retained.checkBands_eq : t.checkBands =
    ({ t with
        bands := keptIf (isSound (bandTableWords t.bands) t.bandCheck) t.bands
          (Vector.replicate 15 (Vector.replicate 4 none))
        bandCheck := keptIf (isSound (bandTableWords t.bands) t.bandCheck) t.bandCheck
          (checkOf (bandTableWords (Vector.replicate 15 (Vector.replicate 4 none)))) },
      !isSound (bandTableWords t.bands) t.bandCheck) := by
  unfold Retained.checkBands keptIf
  cases isSound (bandTableWords t.bands) t.bandCheck <;> rfl

theorem Retained.checkAccounts_eq : t.checkAccounts =
    ({ t with
        accounts := keptIf (isSound (accountTableWords t.accounts) t.accountCheck) t.accounts
          (Vector.replicate 32 Account.cleared)
        accountCheck := keptIf (isSound (accountTableWords t.accounts) t.accountCheck) t.accountCheck
          (checkOf (accountTableWords (Vector.replicate 32 Account.cleared))) },
      !isSound (accountTableWords t.accounts) t.accountCheck) := by
  unfold Retained.checkAccounts keptIf
  cases isSound (accountTableWords t.accounts) t.accountCheck <;> rfl

theorem Retained.checkPolicies_eq : t.checkPolicies =
    ({ t with
        policies := keptIf (isSound (policyTableWords t.policies) t.policyCheck) t.policies (Vector.replicate 8 none)
        policyCheck := keptIf (isSound (policyTableWords t.policies) t.policyCheck) t.policyCheck
          (checkOf (policyTableWords (Vector.replicate 8 none))) },
      !isSound (policyTableWords t.policies) t.policyCheck) := by
  unfold Retained.checkPolicies keptIf
  cases isSound (policyTableWords t.policies) t.policyCheck <;> rfl

theorem Retained.checkCalendar_eq : t.checkCalendar =
    ({ t with
        calendar := keptIf (isSound (calendarWords t.calendar) t.calendarCheck) t.calendar Calendar.cleared
        calendarCheck := keptIf (isSound (calendarWords t.calendar) t.calendarCheck) t.calendarCheck
          (checkOf (calendarWords Calendar.cleared)) },
      !isSound (calendarWords t.calendar) t.calendarCheck) := by
  unfold Retained.checkCalendar keptIf
  cases isSound (calendarWords t.calendar) t.calendarCheck <;> rfl

/-- What the five checks leave before the active counts are cleared, each table by itself (R165). -/
def Retained.keptTables : Retained where
  prefixes := keptIf (isSound (prefixTableWords t.prefixes) t.prefixCheck) t.prefixes (Vector.replicate 64 none)
  prefixCheck := keptIf (isSound (prefixTableWords t.prefixes) t.prefixCheck) t.prefixCheck
    (checkOf (prefixTableWords (Vector.replicate 64 none)))
  bands := keptIf (isSound (bandTableWords t.bands) t.bandCheck) t.bands (Vector.replicate 15 (Vector.replicate 4 none))
  bandCheck := keptIf (isSound (bandTableWords t.bands) t.bandCheck) t.bandCheck
    (checkOf (bandTableWords (Vector.replicate 15 (Vector.replicate 4 none))))
  accounts := keptIf (isSound (accountTableWords t.accounts) t.accountCheck) t.accounts
    (Vector.replicate 32 Account.cleared)
  accountCheck := keptIf (isSound (accountTableWords t.accounts) t.accountCheck) t.accountCheck
    (checkOf (accountTableWords (Vector.replicate 32 Account.cleared)))
  policies := keptIf (isSound (policyTableWords t.policies) t.policyCheck) t.policies (Vector.replicate 8 none)
  policyCheck := keptIf (isSound (policyTableWords t.policies) t.policyCheck) t.policyCheck
    (checkOf (policyTableWords (Vector.replicate 8 none)))
  calendar := keptIf (isSound (calendarWords t.calendar) t.calendarCheck) t.calendar Calendar.cleared
  calendarCheck := keptIf (isSound (calendarWords t.calendar) t.calendarCheck) t.calendarCheck
    (checkOf (calendarWords Calendar.cleared))

/-- The five checks judge each table by itself (R165). -/
theorem Retained.checked_eq : t.checked = (t.keptTables.clearActive,
    { prefixes := !isSound (prefixTableWords t.prefixes) t.prefixCheck
      bands := !isSound (bandTableWords t.bands) t.bandCheck
      accounts := !isSound (accountTableWords t.accounts) t.accountCheck
      policies := !isSound (policyTableWords t.policies) t.policyCheck
      calendar := !isSound (calendarWords t.calendar) t.calendarCheck }) := by
  unfold Retained.checked
  rw [Retained.checkPrefixes_eq]
  dsimp only
  rw [Retained.checkBands_eq]
  dsimp only
  rw [Retained.checkAccounts_eq]
  dsimp only
  rw [Retained.checkPolicies_eq]
  dsimp only
  rw [Retained.checkCalendar_eq]
  rfl

end

theorem State.checkDone_eq {s : State} (checking : s.ctl.engine = .checking) (active : s.inReset = false) :
    s.checkDone = { s with
      retained := s.retained.checked.1
      ctl := { s.ctl with engine := .ready, status := s.retained.checked.2 }
      power := { s.power with roseSinceReady := false } } := by
  unfold State.checkDone
  rw [if_pos ⟨checking, active⟩]
  generalize s.retained.checked = checked
  cases checked
  rfl

/-- An entry of a table that is kept or cleared. -/
theorem keptIf_getElem {α : Type} {n : Nat} (ok : Bool) (content : Vector α n) (x : α) (i : Fin n) :
    (keptIf ok content (Vector.replicate n x))[i] = if ok then content[i] else x := by
  cases ok
  · exact Vector.getElem_replicate _
  · rfl

/-- Settles O27: each table is judged by itself and kept or cleared. -/
theorem checkJudgesEachTable : Obligations.CheckJudgesEachTable := by
  intro s checking active
  refine ⟨s.checkDone, rfl, ?_⟩
  rw [State.checkDone_eq checking active, Retained.checked_eq]
  refine ⟨rfl, fun i => ?_, fun k b => ?_, fun a => ?_, fun i => ?_, rfl, ⟨?_, ?_, ?_, ?_, ?_⟩, rfl⟩
  · exact keptIf_getElem _ _ _ i
  · refine (congrArg (fun row : Vector (Option Band) 4 => row[b]) (keptIf_getElem _ _ _ k)).trans ?_
    cases isSound (bandTableWords s.retained.bands) s.retained.bandCheck
    · exact Vector.getElem_replicate _
    · rfl
  · refine (Vector.getElem_map _ _).trans ?_
    exact congrArg (fun x : Account => { x with active := 0 }) (keptIf_getElem _ _ _ a)
  · exact keptIf_getElem _ _ _ i
  · exact isSound_kept prefixTableWords _ _ _
  · exact isSound_kept bandTableWords _ _ _
  · exact isSound_checkOf _
  · exact isSound_kept policyTableWords _ _ _
  · exact isSound_kept calendarWords _ _ _

end Sys2Proof.Machine
end

section
/-! PROOF. START: the setup block, the adoption of the rings. -/

namespace Sys2Proof.Machine

/-! ## The setup block -/

/-- A field of the setup block is outside its valid values (R159). -/
def SetupInvalid (rd : Nat → Byte) : Prop :=
  (∃ k ∈ [0, 4, 8, 12, 16, 20], (wordAt rd k).toNat % 64 ≠ 0)
    ∨ (∃ k ∈ [24, 26, 28], (halfAt rd k).toNat ∉ [4, 8, 16, 32, 64, 128, 256])
    ∨ (rd 31).toNat = 0 ∨ 64 < (rd 31).toNat ∨ (14 < (rd 32).toNat ∧ (rd 32).toNat ≠ 255)
    ∨ (rd 33).toNat < 16 ∨ 96 < (rd 33).toNat

/-- The parameters that the bytes of a setup block hold (R171). -/
def setupFields (rd : Nat → Byte) : Setup where
  urgentBase := wordAt rd 0
  routineBase := wordAt rd 4
  reportBase := wordAt rd 8
  urgentHeader := wordAt rd 12
  routineHeader := wordAt rd 16
  reportHeader := wordAt rd 20
  urgentSize := (halfAt rd 24).toNat
  routineSize := (halfAt rd 26).toNat
  reportSize := (halfAt rd 28).toNat
  holdTime := (rd 30).toNat
  batch := (rd 31).toNat
  defaultClass := if h : (rd 32).toNat < 15 then some ⟨(rd 32).toNat, h⟩ else none
  qualify := (rd 33).toNat

theorem aligned64_iff {a : Word} : aligned64 a = true ↔ a.toNat % 64 = 0 := decide_eq_true_iff

theorem inRange_iff {lo hi n : Nat} : inRange lo hi n = true ↔ lo ≤ n ∧ n ≤ hi := by
  unfold inRange; rw [Bool.and_eq_true, decide_eq_true_iff, decide_eq_true_iff]

/-- The checks that a setup block has to pass, as one conjunction (R159). -/
theorem setupOf_eq_some {rd : Nat → Byte} (valid : ¬ SetupInvalid rd) : setupOf rd = some (setupFields rd) := by
  have byte : (rd 32).toNat = 255 → rd 32 = 0xFF := fun h => BitVec.eq_of_toNat_eq h
  unfold SetupInvalid at valid
  rw [not_or, not_or, not_exists, not_exists] at valid
  obtain ⟨aligned, sizes, rest⟩ := valid
  have aligned' : ∀ k ∈ [0, 4, 8, 12, 16, 20], aligned64 (wordAt rd k) = true := fun k mem =>
    aligned64_iff.mpr (by by_contra odd; exact aligned k ⟨mem, odd⟩)
  have sizes' : ∀ k ∈ [24, 26, 28], ringSizes.contains (halfAt rd k).toNat = true := fun k mem =>
    List.contains_iff_mem.mpr (by by_contra odd; exact sizes k ⟨mem, odd⟩)
  have batch : inRange 1 64 (rd 31).toNat = true := inRange_iff.mpr (by omega)
  have cls : (decide ((rd 32).toNat < 15) || decide (rd 32 = 0xFF)) = true := by
    rw [Bool.or_eq_true, decide_eq_true_iff, decide_eq_true_iff]
    by_cases low : (rd 32).toNat < 15
    · exact .inl low
    · exact .inr (byte (by omega))
  have qualify : inRange 16 96 (rd 33).toNat = true := inRange_iff.mpr (by omega)
  refine if_pos ?_
  simp only [aligned' _ (by decide : 0 ∈ _), aligned' _ (by decide : 4 ∈ _), aligned' _ (by decide : 8 ∈ _),
    aligned' _ (by decide : 12 ∈ _), aligned' _ (by decide : 16 ∈ _), aligned' _ (by decide : 20 ∈ _),
    sizes' _ (by decide : 24 ∈ _), sizes' _ (by decide : 26 ∈ _), sizes' _ (by decide : 28 ∈ _), batch, cls, qualify,
    Bool.and_self]

theorem setupOf_eq_none {rd : Nat → Byte} (invalid : SetupInvalid rd) : setupOf rd = none := by
  refine if_neg fun valid => ?_
  have byte : rd 32 = 0xFF → (rd 32).toNat = 255 := fun h => by rw [h]; rfl
  simp only [Bool.and_eq_true, Bool.or_eq_true, aligned64_iff, inRange_iff, decide_eq_true_iff, List.contains_iff_mem]
    at valid
  obtain ⟨⟨⟨⟨⟨⟨⟨⟨⟨⟨⟨a0, a4⟩, a8⟩, a12⟩, a16⟩, a20⟩, s24⟩, s26⟩, s28⟩, batch⟩, cls⟩, qualify⟩ := valid
  rcases invalid with ⟨k, mem, odd⟩ | ⟨k, mem, size⟩ | rest
  · simp only [List.mem_cons, List.not_mem_nil, or_false] at mem
    rcases mem with rfl | rfl | rfl | rfl | rfl | rfl
    exacts [odd a0, odd a4, odd a8, odd a12, odd a16, odd a20]
  · rw [List.mem_cons, List.mem_cons, List.mem_singleton] at mem
    rcases mem with rfl | rfl | rfl
    exacts [size s24, size s26, size s28]
  · have cls' : (rd 32).toNat < 15 ∨ (rd 32).toNat = 255 := cls.imp_right byte
    omega

theorem State.takeStart_of_ready {s : State} (ready : s.ctl.engine = .ready) (first : OrderRing) (bus : StartBus) :
    s.takeStart first bus = s.startInReady first bus := by
  unfold State.takeStart
  rw [ready]

theorem State.startInReady_of_unaligned {s : State} (h : s.ctl.setupAddr.toNat % 64 ≠ 0) (first : OrderRing)
    (bus : StartBus) : s.startInReady first bus = s.setError .badSetup := if_neg fun k => h (aligned64_iff.mp k)

theorem State.startInReady_of_none {s : State} (aligned : s.ctl.setupAddr.toNat % 64 = 0) (first : OrderRing)
    {bus : StartBus} (reads : bus ≠ .setupBlock) (none : setupOf (s.readAt s.ctl.setupAddr) = none) :
    s.startInReady first bus = s.setError .badSetup := by
  unfold State.startInReady
  rw [if_pos (aligned64_iff.mpr aligned), if_neg reads, none]

theorem State.startInReady_of_some {s : State} {p : Setup} (aligned : s.ctl.setupAddr.toNat % 64 = 0) (first : OrderRing)
    {bus : StartBus} (reads : bus ≠ .setupBlock) (some : setupOf (s.readAt s.ctl.setupAddr) = some p) :
    s.startInReady first bus = s.startAccepted p first bus := by
  unfold State.startInReady
  rw [if_pos (aligned64_iff.mpr aligned), if_neg reads, some]

/-- Settles O18: address and block are judged before anything is changed. -/
theorem startRefusesBadSetup : Obligations.StartRefusesBadSetup := by
  intro stores first bus s active ready reads
  refine ⟨fun bad => ?_, setupOf_eq_some⟩
  rw [exec_start_of_not_inReset active, State.takeStart_of_ready (s := s.withStores stores) ready]
  by_cases aligned : s.ctl.setupAddr.toNat % 64 = 0
  · exact congrArg Host.Outcome.next (State.startInReady_of_none (s := s.withStores stores) aligned first reads
      (setupOf_eq_none (bad.resolve_left fun k => k aligned)))
  · exact congrArg Host.Outcome.next (State.startInReady_of_unaligned (s := s.withStores stores) aligned first bus)

/-! ## UNSOLICITED reports in a row -/

theorem ReportWriter.withUnsolicited_nil (r : ReportWriter) (stamp : Stamp) : r.withUnsolicited stamp [] = r := by
  simp [ReportWriter.withUnsolicited]

/-- Reports handed over one after another are those handed over in a row (R147). -/
theorem ReportWriter.withUnsolicited_append (r : ReportWriter) (stamp : Stamp) (kinds more : List UnsolicitedKind) :
    (r.withUnsolicited stamp kinds).withUnsolicited stamp more = r.withUnsolicited stamp (kinds ++ more) := by
  have isOne : ∀ ks : List UnsolicitedKind,
      (ks.map fun k => ({ body := .unsolicited { kind := k, stamp := stamp }, urgent := true } : OutboxEntry)).countP
        OutboxEntry.isUnsolicited = ks.length := by
    intro ks
    rw [List.countP_eq_length.mpr, List.length_map]
    intro e mem
    obtain ⟨k, -, rfl⟩ := List.mem_map.mp mem
    rfl
  unfold ReportWriter.withUnsolicited
  dsimp only
  rw [List.countP_append, isOne, List.length_take]
  generalize r.outbox.countP OutboxEntry.isUnsolicited = n
  have room : 8 - (n + min (8 - n) kinds.length) = 8 - n - kinds.length := by omega
  rw [room, List.take_append, List.map_append, List.append_assoc, List.length_append]
  congr 1
  split <;> split <;> split <;> omega

theorem State.afterUnsolicited_eq (s : State) (kind : UnsolicitedKind) :
    s.afterUnsolicited kind = s.report.withUnsolicited s.now [kind] := by
  unfold State.afterUnsolicited State.unsolicitedRoom ReportWriter.withUnsolicited ReportWriter.append
  dsimp only [List.length_singleton]
  by_cases room : s.report.outbox.countP OutboxEntry.isUnsolicited < 8
  · have fits : 1 ≤ 8 - s.report.outbox.countP OutboxEntry.isUnsolicited := by omega
    rw [if_pos (decide_eq_true room), List.take_of_length_le fits, if_pos fits]
    rfl
  · have full : 8 - s.report.outbox.countP OutboxEntry.isUnsolicited = 0 := by omega
    rw [if_neg (by simpa using room), full]
    simp

/-! ## The adoption of the rings -/

/-- The indices in a header stand further apart than the ring is long (R25). -/
def State.malformed (s : State) (p : Setup) (r : OrderRing) : Bool :=
  decide (p.size r < (s.readProducer (p.header r) - s.readConsumer (p.header r)).toNat)

/-- An order ring as its adoption leaves it (R25). -/
def State.adoptedRing (s : State) (p : Setup) (r : OrderRing) : Ring where
  base := p.base r
  size := p.size r
  header := p.header r
  cachedProducer := s.readProducer (p.header r)
  consumer := s.readConsumer (p.header r)
  state :=
    if s.malformed p r then .faulted
    else if s.readProducer (p.header r) = s.readConsumer (p.header r) then .empty else .active

/-- The state in which an order ring has been adopted, RING_FAULT reported for a malformed one (R25, R27). -/
def State.adopts (s : State) (p : Setup) (r : OrderRing) : State :=
  { s.setRing r (s.adoptedRing p r) with
    ctl := if s.malformed p r then s.ctl.flagRing r else s.ctl
    report := s.report.withUnsolicited s.now (if s.malformed p r then [.ringFault r] else []) }

theorem State.placeRing_adoptRing (s : State) (p : Setup) (r : OrderRing) :
    (s.placeRing p r).adoptRing r = s.adopts p r := by
  have far : tooFarAhead (s.readProducer (p.header r)) (s.readConsumer (p.header r)) (p.size r) = s.malformed p r := rfl
  have placed : (s.placeRing p r).ring r = { s.ring r with base := p.base r, size := p.size r, header := p.header r } := by
    cases r <;> rfl
  have reads : ∀ h, (s.placeRing p r).readProducer h = s.readProducer h ∧ (s.placeRing p r).readConsumer h = s.readConsumer h :=
    fun h => by cases r <;> exact ⟨rfl, rfl⟩
  unfold State.adoptRing State.adopts
  dsimp only
  rw [placed]
  dsimp only
  rw [(reads _).1, (reads _).2, far]
  cases malformed : s.malformed p r
  · unfold State.adoptedRing
    simp only [malformed, Bool.false_eq_true, if_false, ReportWriter.withUnsolicited_nil]
    cases r <;> rfl
  · unfold State.faultRing State.adoptedRing
    simp only [malformed, if_true]
    rw [State.queueUnsolicited_eq, State.afterUnsolicited_eq]
    cases r <;> rfl

/-- What START leaves once both rings are adopted (R160 step 6). -/
theorem State.adoptOrderRings_ok (s : State) (p : Setup) (first : OrderRing) {bus : StartBus}
    (ok : ∀ r, bus ≠ .orderHeader r) :
    State.adoptOrderRings p bus [first, otherRing first] s
      = (((s.adopts p first).adopts p (otherRing first)).setStreak 0).modCtl fun k =>
          { k with engine := .running, error := .none } := by
  unfold State.adoptOrderRings
  rw [if_neg (ok first), State.placeRing_adoptRing]
  unfold State.adoptOrderRings
  rw [if_neg (ok (otherRing first)), State.placeRing_adoptRing]
  rfl

/-- Where the header of the first ring, or of the second, cannot be read (R25, log 28). -/
theorem State.adoptOrderRings_first (s : State) (p : Setup) (first : OrderRing) :
    State.adoptOrderRings p (.orderHeader first) [first, otherRing first] s = (s.placeRing p first).halt .memoryFault := by
  unfold State.adoptOrderRings
  rw [if_pos rfl]

theorem State.adoptOrderRings_second (s : State) (p : Setup) (first : OrderRing) :
    State.adoptOrderRings p (.orderHeader (otherRing first)) [first, otherRing first] s
      = ((s.adopts p first).placeRing p (otherRing first)).halt .memoryFault := by
  unfold State.adoptOrderRings
  rw [if_neg (by cases first <;> simp [otherRing]), State.placeRing_adoptRing]
  unfold State.adoptOrderRings
  rw [if_pos rfl]

/-! ## An accepted START -/

theorem State.copySetup_placeReportRing (s : State) (p : Setup) :
    (s.copySetup p).placeReportRing p = s.withSetup p := by
  unfold State.copySetup State.placeReportRing State.withSetup
  dsimp only
  cases raised : !s.report.sigPending && decide (p.batch ≤ s.report.unsignalled)
  · simp only [Bool.false_eq_true, if_false, Bool.or_false]; rfl
  · simp only [if_true, Bool.or_true]; rfl

/-- The report writer with the indices that the header shows (R145). -/
def State.withIndices (s : State) (p : Setup) : State :=
  { s with report := { s.report with
      producer := s.readProducer p.reportHeader, cachedConsumer := s.readConsumer p.reportHeader } }

/-- The report ring adopted, the fault flags cleared, STARTED handed to the report writer (R160 steps 3 to 5). -/
def State.started (s : State) : State :=
  { s with
    ctl := { s.ctl with urgentFault := false, routineFault := false }
    report := { s.report with adopted := true }.withUnsolicited s.now
      [.started s.ctl.cause s.ctl.status s.retained.calendar.valid] }

theorem State.startAccepted_eq (s : State) (p : Setup) (first : OrderRing) (bus : StartBus) :
    s.startAccepted p first bus =
      if bus = .reportHeader then (s.withSetup p).halt .memoryFault
      else if p.reportSize < (s.readProducer p.reportHeader - s.readConsumer p.reportHeader).toNat then
        ((s.withSetup p).withIndices p).halt .badReportIndex
      else State.adoptOrderRings p bus [first, otherRing first] ((s.withSetup p).withIndices p).started := by
  have indices : (s.withSetup p).readReportIndices = (s.withSetup p).withIndices p := rfl
  have far : tooFarAhead ((s.withSetup p).withIndices p).report.producer
      ((s.withSetup p).withIndices p).report.cachedConsumer ((s.withSetup p).withIndices p).report.size
      = decide (p.reportSize < (s.readProducer p.reportHeader - s.readConsumer p.reportHeader).toNat) := rfl
  have run : ∀ u : State, u.startRun p first bus = State.adoptOrderRings p bus [first, otherRing first] u.started := by
    intro u
    unfold State.startRun State.started
    dsimp only
    rw [State.queueUnsolicited_eq, State.afterUnsolicited_eq]
    rfl
  unfold State.startAccepted
  rw [State.copySetup_placeReportRing]
  dsimp only
  rw [indices, far, run]
  simp only [decide_eq_true_iff]

theorem State.withSetup_line (s : State) (p : Setup) (l : LineId) :
    (s.withSetup p).line l = { s.line l with stored := { (s.line l).stored with qualify := p.qualify } } :=
  State.map_lines_line s _ l

/-- Neither the adoption of another ring nor STARTED changes what is read of a ring's header. -/
theorem State.malformed_congr {s t : State} (mem : t.mem = s.mem) (p : Setup) (r : OrderRing) :
    t.malformed p r = s.malformed p r := by
  unfold State.malformed State.readProducer State.readConsumer State.readAt
  rw [mem]

theorem State.adoptedRing_congr {s t : State} (mem : t.mem = s.mem) (p : Setup) (r : OrderRing) :
    t.adoptedRing p r = s.adoptedRing p r := by
  unfold State.adoptedRing
  rw [State.malformed_congr mem]
  unfold State.readProducer State.readConsumer State.readAt
  rw [mem]

theorem State.adopts_mem (s : State) (p : Setup) (r : OrderRing) : (s.adopts p r).mem = s.mem := by
  cases r <;> rfl

theorem State.adopts_ring_same (s : State) (p : Setup) (r : OrderRing) : (s.adopts p r).ring r = s.adoptedRing p r := by
  cases r <;> rfl

theorem State.adopts_ring_other (s : State) (p : Setup) {r q : OrderRing} (h : q ≠ r) : (s.adopts p r).ring q = s.ring q := by
  cases r <;> cases q <;> simp_all <;> rfl

/-- Both fault flags stand as the adoptions found them (R160). -/
theorem Control.flagRing_both (k : Control) (first : OrderRing) (bad : OrderRing → Bool) :
    (if bad (otherRing first) then
        (if bad first then { k with urgentFault := false, routineFault := false }.flagRing first
          else { k with urgentFault := false, routineFault := false }).flagRing (otherRing first)
      else if bad first then { k with urgentFault := false, routineFault := false }.flagRing first
        else { k with urgentFault := false, routineFault := false })
      = { k with urgentFault := bad .urgent, routineFault := bad .routine } := by
  cases urgent : bad .urgent <;> cases routine : bad .routine <;> cases first <;>
    simp only [otherRing, urgent, routine] <;> rfl

/-- STARTED and the RING_FAULT reports, handed over one after another, are those that `startReports` names (R160). -/
theorem startReports_eq (started : UnsolicitedKind) (first : OrderRing) (bad : OrderRing → Bool) :
    ([started] ++ if bad first then [.ringFault first] else []) ++ (if bad (otherRing first) then
      [.ringFault (otherRing first)] else []) = startReports started first bad := by
  unfold startReports
  cases h : bad first <;> cases k : bad (otherRing first) <;> simp [h, k]

/-- Settles O19: the adoptions read what the host has stored, one ring after another. -/
theorem startAdoptsTheRings : Obligations.StartAdoptsTheRings := by
  intro stores first s p active ready aligned valid m producer consumer malformed kinds room raised near
  let u := ((m.withSetup p).withIndices p).started
  let t := ((u.adopts p first).adopts p (otherRing first)).setStreak 0 |>.modCtl fun k =>
    { k with engine := .running, error := .none }
  have run : exec (.start stores first .ok) s = .next t := by
    rw [exec_start_of_not_inReset active, State.takeStart_of_ready (s := m) ready,
      State.startInReady_of_some (s := m) aligned first StartBus.noConfusion valid, State.startAccepted_eq,
      if_neg StartBus.noConfusion, if_neg (Nat.not_lt.mpr near),
      State.adoptOrderRings_ok _ p first fun r => StartBus.noConfusion]
  have bad : ∀ r, u.malformed p r = malformed r := fun r => State.malformed_congr rfl p r
  have bad' : ∀ r, (u.adopts p first).malformed p r = malformed r := fun r =>
    State.malformed_congr (State.adopts_mem u p first) p r
  refine ⟨t, run, ?_, rfl, fun r => ?_, ?_, fun l => ?_, ?_⟩
  · have flags := Control.flagRing_both { s.ctl with setup := p } first malformed
    have ctl : t.ctl = { (if (u.adopts p first).malformed p (otherRing first) then
        (if u.malformed p first then u.ctl.flagRing first else u.ctl).flagRing (otherRing first)
        else (if u.malformed p first then u.ctl.flagRing first else u.ctl)) with
        engine := .running, error := .none } := by cases first <;> rfl
    rw [ctl, bad, bad']
    exact congrArg (fun k : Control => { k with engine := .running, error := .none }) flags
  · have adopted : ∀ q, t.ring q = u.adoptedRing p q := by
      intro q
      have k : t.ring q = ((u.adopts p first).adopts p (otherRing first)).ring q := by cases q <;> rfl
      rw [k]
      by_cases e : q = otherRing first
      · subst e
        rw [State.adopts_ring_same, State.adoptedRing_congr (State.adopts_mem u p first)]
      · obtain rfl : q = first := by cases q <;> cases first <;> simp_all [otherRing]
        rw [State.adopts_ring_other _ _ e, State.adopts_ring_same]
    rw [adopted]
    unfold State.adoptedRing
    rw [bad]
    rfl
  · have report : t.report = (u.report.withUnsolicited s.now (if u.malformed p first then [.ringFault first] else [])).withUnsolicited
        s.now (if (u.adopts p first).malformed p (otherRing first) then [.ringFault (otherRing first)] else []) := by
      cases first <;> rfl
    have started : u.report = { ((m.withSetup p).withIndices p).report with adopted := true }.withUnsolicited s.now
        [.started s.ctl.cause s.ctl.status s.retained.calendar.valid] := rfl
    rw [report, bad, bad', started, ReportWriter.withUnsolicited_append, ReportWriter.withUnsolicited_append,
      ← List.append_assoc, startReports_eq]
    rfl
  · have line : t.line l = (m.withSetup p).line l := by cases first <;> rfl
    rw [line, State.withSetup_line]
    rfl
  · cases first <;> rfl

end Sys2Proof.Machine
end

section
/-! PROOF. The take of a request record (R31, R32): what is common to all kinds, in the terms of the statements. -/

namespace Sys2Proof.Machine

/-! ## What each kind of record does once taken -/

/-- What the record of a take command does when it is acted on; commands that take no record do nothing here. -/
def takenBy (i : Instr) (u : State) : State :=
  match i with
  | .placeCall r _ rec => u.actPlaceCall r rec
  | .accept r _ rec => u.actAccept r rec
  | .cancel _ _ rec => u.actCancel rec
  | .release _ _ rec => u.actRelease rec
  | .setLine _ _ rec => u.actSetLine rec
  | .loadPrefix _ _ rec => u.answerConfig rec.tag 0x11 (loadPrefixChange rec)
  | .loadBand _ _ rec => u.answerConfig rec.tag 0x12 (loadBandChange rec)
  | .setPolicy _ _ rec => u.answerConfig rec.tag 0x13 (setPolicyChange rec)
  | .setClock _ _ rec => u.answerConfig rec.tag 0x15 (setClockChange rec)
  | .accountSetLimit _ _ tag a limited limit =>
    u.actAccount tag a fun x => { x with limited := limited, limit := limit.toNat }
  | .accountClearTotal _ _ tag a => u.actAccount tag a fun x => { x with total := 0 }
  | .accountSuspend _ _ tag a => u.actAccount tag a fun x => { x with suspended := true }
  | .accountResume _ _ tag a => u.actAccount tag a fun x => { x with suspended := false }
  | .accountRead _ _ tag a => u.queueDone tag 0x14 .done (some (a, u.account a)) false
  | .accountInvalidOperation _ _ rec => u.queueDone rec.tag 0x14 .badRequest none false
  | .unknownRequestKind _ _ kind tag => u.queueDone tag kind .badRequest none false
  | _ => u

theorem takenBy_keeps (i : Instr) (u : State) : u.Keeps (takenBy i u) := by
  unfold takenBy
  cases i
  case placeCall r bus rec => exact u.actPlaceCall_keeps r rec
  case accept r bus rec => exact u.actAccept_keeps r rec
  case cancel r bus rec => exact u.actCancel_keeps rec
  case release r bus rec => exact u.actRelease_keeps rec
  case setLine r bus rec => exact u.actSetLine_keeps rec
  case loadPrefix | loadBand | setPolicy | setClock => exact u.answerConfig_keeps _ _ _
  case accountSetLimit | accountClearTotal | accountSuspend | accountResume => exact u.actAccount_keeps _ _ _
  case accountRead | accountInvalidOperation | unknownRequestKind => exact u.queueDone_keeps _ _ _ _ _
  all_goals exact .refl u

/-- A kind that R172 does not assign needs a done slot (R30). -/
theorem needOfKind_of_unknown {kind : Byte} (h : kind ∉ knownKinds) : needOfKind kind = .doneSlot := by
  refine if_neg fun k => h ?_
  rcases k with rfl | rfl <;> decide

/-- A take command is one take, whose need is that of the kind in its record's bytes (R30). -/
theorem exec_of_take {i : Instr} {r : OrderRing} {bus : TakeBus} {cells : List (Nat × Byte)}
    (h : i.take = some (r, bus, cells)) (wf : i.wellFormed = true) (s : State) :
    exec i s = .next (s.takeFrom r bus (needOfKind (overlay cells (fun _ => 0) 0)) cells (takenBy i)) := by
  cases i <;> cases h <;> try rfl
  case unknownRequestKind kind tag =>
    have unknown : kind ∉ knownKinds := by simpa [Instr.wellFormed] using wf
    exact congrArg (fun need => Host.Outcome.next (s.takeFrom r bus need _ _)) (needOfKind_of_unknown unknown).symm

/-! ## The heads considered -/

theorem Ring.considered_eq_judged (x : Ring) (need : Need) (isFree : Bool) :
    x.considered need isFree = x.judged need isFree := by
  unfold Ring.considered Ring.judged
  by_cases active : x.state = .active
  · by_cases last : x.consumer = x.cachedProducer
    · rw [if_pos active, if_pos last, if_pos ⟨active, last⟩]
    · cases isFree <;> simp [active, last]
  · simp [active]

theorem Ring.judged_of_not_active {x : Ring} (h : x.state ≠ .active) (need : Need) (isFree : Bool) :
    x.judged need isFree = x := by
  unfold Ring.judged
  rw [if_neg fun k => h k.1, if_neg fun k => h k.1]

theorem Ring.judged_of_takeable {x : Ring} (h : x.consumer ≠ x.cachedProducer) (need : Need) :
    x.judged need true = x := by
  unfold Ring.judged
  rw [if_neg fun k => h k.2, if_neg fun k => Bool.noConfusion k.2]

theorem Ring.judged_hasRecord (x : Ring) (need : Need) (isFree : Bool) :
    (x.judged need isFree).hasRecord = (x.hasRecord && isFree) := by
  unfold Ring.judged Ring.hasRecord
  by_cases active : x.state = .active <;> by_cases last : x.consumer = x.cachedProducer <;> cases isFree <;>
    simp [active, last]

@[simp] theorem State.setRing_self (s : State) (r : OrderRing) : s.setRing r (s.ring r) = s := by cases r <;> rfl

@[simp] theorem State.setRing_hasFree (s : State) (r : OrderRing) (x : Ring) (need : Need) :
    (s.setRing r x).hasFree need = s.hasFree need :=
  State.hasFree_congr (by cases r <;> rfl) (by cases r <;> rfl) need

@[simp] theorem State.storeCells_hasFree (s : State) (base : Word) (cells : List (Nat × Byte)) (need : Need) :
    (s.storeCells base cells).hasFree need = s.hasFree need := State.hasFree_congr rfl rfl need

theorem State.considerRing_eq (s : State) (r : OrderRing) (need : Need) :
    s.considerRing r need = s.setRing r ((s.ring r).judged need (s.hasFree need)) := by
  rw [State.considerRing, State.modRing_eq_setRing, Ring.considered_eq_judged]

theorem State.considerRing_headNeed (s : State) (r : OrderRing) (need : Need) (q : OrderRing) (h : q ≠ r) :
    (s.considerRing r need).headNeed q = s.headNeed q := by
  unfold State.headNeed
  rw [State.considerRing_eq, State.setRing_ring_other _ _ _ _ h]
  cases r <;> rfl

/-- The other ring's need is read from memory, which considering a head does not change. -/
theorem State.considerHeads_eq (s : State) (r : OrderRing) (need : Need) :
    s.considerHeads r need
      = (s.setRing r ((s.ring r).judged need (s.hasFree need))).setRing (otherRing r)
          ((s.ring (otherRing r)).judged (s.headNeed (otherRing r)) (s.hasFree (s.headNeed (otherRing r)))) := by
  show (s.considerRing r need).considerRing (otherRing r) (s.headNeed (otherRing r)) = _
  rw [State.considerRing_eq (s.considerRing r need), State.considerRing_eq s, State.setRing_hasFree,
    State.setRing_ring_other _ _ _ _ (otherRing_ne r)]

/-! ## The choice -/

theorem Ring.hasRecord_iff (x : Ring) : x.hasRecord = true ↔ x.state = .active ∧ x.consumer ≠ x.cachedProducer := by
  simp [Ring.hasRecord]

theorem State.takeable_iff (s : State) (r : OrderRing) (need : Need) :
    s.Takeable r need ↔ ((s.ring r).hasRecord && s.hasFree need) = true := by
  rw [Bool.and_eq_true, Ring.hasRecord_iff, and_assoc]
  rfl

/-- The streak counter behind a take of ring `r` (R31): a take of ROUTINE sets it to 0, one of URGENT counts while both
heads are takeable. -/
def streakAfter (r : OrderRing) (both : Bool) (streak : Nat) : Nat :=
  match r with
  | .routine => 0
  | .urgent => if both then streak + 1 else streak

/-- Ring `r` with a takeable head is chosen (R31), unless both are takeable and the streak counter gives the other one. -/
theorem State.choose_eq {s : State} {r : OrderRing} (here : (s.ring r).hasRecord = true)
    (turn : (s.ring (otherRing r)).hasRecord = true →
      (r = .urgent ∧ s.intake.streak < 4) ∨ (r = .routine ∧ 4 ≤ s.intake.streak)) :
    s.choose = some (r, streakAfter r (s.ring (otherRing r)).hasRecord s.intake.streak) := by
  unfold State.choose ringChoice
  cases r with
  | urgent =>
    change _ = some (OrderRing.urgent, if (s.ring .routine).hasRecord then _ else _)
    rw [here]
    cases other : (s.ring .routine).hasRecord with
    | false => rfl
    | true =>
      rcases turn other with ⟨-, below⟩ | ⟨k, -⟩
      · exact if_pos below
      · cases k
  | routine =>
    rw [here]
    cases other : (s.ring .urgent).hasRecord with
    | false => rfl
    | true =>
      rcases turn other with ⟨k, -⟩ | ⟨-, full⟩
      · cases k
      · exact if_neg (Nat.not_lt.mpr full)

/-- Both heads takeable, the streak counter gives the other ring (R31). -/
theorem State.choose_ne {s : State} {r : OrderRing} (here : (s.ring r).hasRecord = true)
    (other : (s.ring (otherRing r)).hasRecord = true)
    (turn : (r = .urgent ∧ 4 ≤ s.intake.streak) ∨ (r = .routine ∧ s.intake.streak < 4)) :
    ∃ n, s.choose = some (otherRing r, n) := by
  unfold State.choose ringChoice
  rcases turn with ⟨rfl, full⟩ | ⟨rfl, below⟩
  · rw [here, show (s.ring .routine).hasRecord = true from other]
    exact ⟨0, if_neg (Nat.not_lt.mpr full)⟩
  · rw [here, show (s.ring .urgent).hasRecord = true from other]
    exact ⟨s.intake.streak + 1, if_pos below⟩

/-! ## The take -/

theorem State.takeFrom_of_not_running {s : State} (h : s.ctl.engine ≠ .running) (r : OrderRing) (bus : TakeBus)
    (need : Need) (cells : List (Nat × Byte)) (act : State → State) : s.takeFrom r bus need cells act = s := by
  unfold State.takeFrom
  rw [if_neg fun k => h k.1, if_neg h]

theorem State.takeFrom_of_no_record {s : State} {r : OrderRing} (running : s.ctl.engine = .running)
    (h : (s.ring r).hasRecord = false) (bus : TakeBus) (need : Need) (cells : List (Nat × Byte)) (act : State → State) :
    s.takeFrom r bus need cells act = s.considerRing r need := by
  unfold State.takeFrom
  rw [if_neg fun k => by rw [h] at k; exact Bool.noConfusion k.2, if_pos running]

theorem State.takeFrom_of_readError {s : State} {r : OrderRing} (running : s.ctl.engine = .running)
    (h : (s.ring r).hasRecord = true) (need : Need) (cells : List (Nat × Byte)) (act : State → State) :
    s.takeFrom r .readError need cells act = (s.storeCells (s.ring r).headAddr cells).halt .memoryFault := by
  unfold State.takeFrom
  rw [if_pos ⟨running, h⟩]
  exact if_pos rfl

/-- The state in which intake chooses: the record's bytes in the head's slot, both heads considered (R31). -/
def State.atChoice (s : State) (r : OrderRing) (need : Need) (cells : List (Nat × Byte)) : State :=
  (s.storeCells (s.ring r).headAddr cells).considerHeads r need

theorem State.takeFrom_of_chosen {s : State} {r : OrderRing} {bus : TakeBus} {need : Need} {cells : List (Nat × Byte)}
    {n : Nat} (running : s.ctl.engine = .running) (record : (s.ring r).hasRecord = true) (read : bus ≠ .readError)
    (chosen : (s.atChoice r need cells).choose = some (r, n)) (act : State → State) :
    s.takeFrom r bus need cells act = (act ((s.atChoice r need cells).setStreak n)).finishTake r bus := by
  unfold State.atChoice at chosen ⊢
  unfold State.takeFrom
  rw [if_pos ⟨running, record⟩]
  dsimp only
  rw [if_neg read, chosen]
  exact if_pos rfl

theorem State.takeFrom_of_not_chosen {s : State} {r : OrderRing} {bus : TakeBus} {need : Need}
    {cells : List (Nat × Byte)} (running : s.ctl.engine = .running) (record : (s.ring r).hasRecord = true)
    (read : bus ≠ .readError) (other : ∀ n, (s.atChoice r need cells).choose ≠ some (r, n)) (act : State → State) :
    s.takeFrom r bus need cells act = s.atChoice r need cells := by
  unfold State.atChoice at other ⊢
  unfold State.takeFrom
  rw [if_pos ⟨running, record⟩]
  dsimp only
  rw [if_neg read]
  split
  · rename_i chosen n found
    rw [if_neg fun same => other n (by rw [found, same])]
  · rfl

/-- The heads considered before a takeable record is taken: only the other ring can change (R28, R29). -/
theorem State.atChoice_of_takeable {s : State} {r : OrderRing} {need : Need} (h : s.Takeable r need)
    (cells : List (Nat × Byte)) :
    s.atChoice r need cells
      = (s.storeCells (s.ring r).headAddr cells).setRing (otherRing r)
          ((s.ring (otherRing r)).judged ((s.storeCells (s.ring r).headAddr cells).headNeed (otherRing r))
            (s.hasFree ((s.storeCells (s.ring r).headAddr cells).headNeed (otherRing r)))) := by
  obtain ⟨-, ahead, free⟩ := h
  rw [State.atChoice, State.considerHeads_eq, State.storeCells_ring, State.storeCells_hasFree, State.storeCells_hasFree,
    State.storeCells_ring, free, Ring.judged_of_takeable ahead]
  congr 1
  exact State.setRing_self (s.storeCells (s.ring r).headAddr cells) r

/-- The state in which a takeable record of ring `r` is acted on (R31): its bytes in the head's slot, the other ring
considered, the streak counter moved. -/
def State.atTurn (s : State) (r : OrderRing) (cells : List (Nat × Byte)) : State :=
  let m := s.storeCells (s.ring r).headAddr cells
  let need := m.headNeed (otherRing r)
  (m.setRing (otherRing r) ((s.ring (otherRing r)).judged need (s.hasFree need))).setStreak
    (streakAfter r ((s.ring (otherRing r)).hasRecord && s.hasFree need) s.intake.streak)

/-- The take of a takeable record whose ring intake chooses (R31, R32). -/
theorem State.takeFrom_of_turn {s : State} {r : OrderRing} {bus : TakeBus} {need : Need} {cells : List (Nat × Byte)}
    (running : s.ctl.engine = .running) (takeable : s.Takeable r need) (read : bus ≠ .readError)
    (turn : s.Takeable (otherRing r) ((s.storeCells (s.ring r).headAddr cells).headNeed (otherRing r)) →
      (r = .urgent ∧ s.intake.streak < 4) ∨ (r = .routine ∧ 4 ≤ s.intake.streak)) (act : State → State) :
    s.takeFrom r bus need cells act = (act (s.atTurn r cells)).finishTake r bus := by
  have record : (s.ring r).hasRecord = true := (Ring.hasRecord_iff _).mpr ⟨takeable.1, takeable.2.1⟩
  have considered := State.atChoice_of_takeable takeable cells
  rw [State.takeable_iff, ← Ring.judged_hasRecord _ ((s.storeCells (s.ring r).headAddr cells).headNeed (otherRing r))]
    at turn
  have chosen := State.choose_eq (s := s.atChoice r need cells) (r := r)
    (by rw [considered, State.setRing_ring_other _ _ _ _ (otherRing_ne r).symm, State.storeCells_ring]; exact record)
    (by
      have streak : (s.atChoice r need cells).intake.streak = s.intake.streak := by rw [considered]; cases r <;> rfl
      rw [streak, considered, State.setRing_ring_same]; exact turn)
  rw [State.takeFrom_of_chosen running record read chosen]
  unfold State.atTurn
  dsimp only
  rw [← Ring.judged_hasRecord, considered, State.setRing_ring_same]
  cases r <;> rfl

/-- With the other ring not ACTIVE the record is acted on where the statements say (R31). -/
theorem State.atTurn_of_alone {s : State} {r : OrderRing} (alone : (s.ring (otherRing r)).state ≠ .active)
    (cells : List (Nat × Byte)) : s.atTurn r cells = s.atTake r cells := by
  have noRecord : (s.ring (otherRing r)).hasRecord = false := by simp [Ring.hasRecord, alone]
  unfold State.atTurn
  dsimp only
  rw [Ring.judged_of_not_active alone, noRecord, ← State.storeCells_ring s (s.ring r).headAddr cells (otherRing r),
    State.setRing_self]
  cases r <;> rfl

/-- Steps 3 and 4 of a take with no bus error (R32). -/
theorem State.finishTake_ok (s : State) (r : OrderRing) : s.finishTake r .ok = s.afterTake r := by
  unfold State.finishTake State.afterTake State.writeConsumer Ring.stepped
  dsimp only
  rw [if_neg TakeBus.noConfusion, State.modRing_ring_same]
  split <;> cases r <;> rfl

/-- Every kind of record, when nothing stands in the way of its take. -/
theorem exec_take_of_ready {i : Instr} {r : OrderRing} {cells : List (Nat × Byte)} {s : State} {need : Need}
    (take : i.take = some (r, .ok, cells)) (wf : i.wellFormed = true)
    (kind : needOfKind (overlay cells (fun _ => 0) 0) = need) (ready : s.ReadyToTake r need) :
    exec i s = .next ((takenBy i (s.atTake r cells)).afterTake r) := by
  obtain ⟨running, record, resource, alone⟩ := ready
  obtain ⟨active, ahead⟩ := (Ring.hasRecord_iff _).mp record
  rw [exec_of_take take wf, kind, State.takeFrom_of_turn running ⟨active, ahead, resource⟩ TakeBus.noConfusion
    (fun both => absurd both.1 alone), State.atTurn_of_alone alone, State.finishTake_ok]

end Sys2Proof.Machine
end

section
/-! PROOF. The configuration requests (R34 to R41): what their fields are read as, and what their takes do. -/

namespace Sys2Proof.Machine

/-! ## Fields read from bytes -/

theorem finOf_eq {n k : Nat} {i : Fin n} (h : k = i.val) : finOf n k = some i := by
  subst h
  exact dif_pos i.isLt

theorem finOf_eq_none {n k : Nat} (h : n ≤ k) : finOf n k = none := dif_neg (Nat.not_lt.mpr h)

theorem finOf_eq_some_iff {n k : Nat} {i : Fin n} : finOf n k = some i ↔ k = i.val := by
  refine ⟨fun h => ?_, finOf_eq⟩
  unfold finOf at h
  split at h
  · cases h; rfl
  · cases h

theorem finOf_isSome {n k : Nat} : (finOf n k).isSome = true ↔ k < n := by
  unfold finOf
  split <;> simp_all

theorem flagOf_eq_some_iff {b : Byte} {x : Bool} : flagOf b = some x ↔ b = if x then 1 else 0 := by
  unfold flagOf
  split
  · rename_i zero; subst zero; cases x <;> decide
  · rename_i zero
    split
    · rename_i one; subst one; cases x <;> decide
    · rename_i one; cases x
      · exact iff_of_false (fun k => by cases k) zero
      · exact iff_of_false (fun k => by cases k) one

theorem flagOf_lt {b : Byte} {x : Bool} (h : flagOf b = some x) : b.toNat < 2 := by
  rw [flagOf_eq_some_iff.mp h]
  cases x <;> decide

theorem flagOf_of_lt {b : Byte} (h : b.toNat < 2) : flagOf b = some (decide (b = 1)) := by
  rw [flagOf_eq_some_iff]
  have one : b = 0 ∨ b = 1 := by
    rcases Nat.lt_or_ge b.toNat 1 with k | k
    · exact .inl (BitVec.eq_of_toNat_eq (by simp; omega))
    · exact .inr (BitVec.eq_of_toNat_eq (by simp; omega))
  rcases one with rfl | rfl <;> rfl

section
variable {α β : Type}

theorem mapAll_eq_none {f : α → Option β} {l : List α} {a : α} (mem : a ∈ l) (h : f a = none) : mapAll f l = none := by
  induction l with
  | nil => cases mem
  | cons b rest ih =>
    unfold mapAll
    split
    · rename_i bs first others
      rcases List.mem_cons.mp mem with rfl | inRest
      · rw [h] at first; cases first
      · rw [ih inRest] at others; cases others
    · rfl

theorem mapAll_map {γ : Type} {f : α → Option β} {g : γ → α} {k : γ → β} (h : ∀ c, f (g c) = some (k c)) (l : List γ) :
    mapAll f (l.map g) = some (l.map k) := by
  induction l with
  | nil => rfl
  | cons c rest ih =>
    rw [List.map_cons, mapAll, h, ih]
    rfl

end

theorem mapAll_symbolBytes (symbols : List (Fin 12)) :
    mapAll (fun b : Byte => finOf 12 b.toNat) (symbolBytes symbols) = some symbols := by
  unfold symbolBytes
  rw [mapAll_map (f := fun b : Byte => finOf 12 b.toNat) (k := id) fun d => finOf_eq (by simp; omega), List.map_id]

theorem prefixClassOf_byte (cls : PrefixClass) : prefixClassOf cls.byte = some cls := by
  cases cls with
  | tariff c =>
    unfold prefixClassOf PrefixClass.byte
    rw [finOf_eq (i := c) (by simp; omega)]
  | barred => rfl

theorem prefixClassOf_eq_none {b : Byte} (h : 15 < b.toNat) : prefixClassOf b = none := by
  unfold prefixClassOf
  rw [finOf_eq_none (by omega)]
  exact if_neg fun k => by subst k; simp at h

theorem daySetOf_byte (days : DaySet) : daySetOf days.byte = some days := by cases days <;> rfl

theorem daySetOf_eq_none {b : Byte} (h : 3 ≤ b.toNat) : daySetOf b = none := by
  unfold daySetOf
  rw [if_neg fun k => by subst k; simp at h, if_neg fun k => by subst k; simp at h, if_neg fun k => by subst k; simp at h]

/-! ## Entries read from records -/

theorem LoadPrefixRec.entry_absent {rec : LoadPrefixRec} {i : Fin 64} (index : rec.index.toNat = i.val)
    (h : rec.present = 0) : rec.entry = some (i, none) := by
  unfold LoadPrefixRec.entry
  rw [finOf_eq index, h]
  rfl

theorem LoadPrefixRec.entry_present {rec : LoadPrefixRec} {i : Fin 64} {symbols : List (Fin 12)} {cls : PrefixClass}
    (index : rec.index.toNat = i.val) (present : rec.present = 1) (some : 1 ≤ symbols.length)
    (fits : symbols.length ≤ 12) (length : rec.length.toNat = symbols.length)
    (bytes : rec.symbols.toList.take symbols.length = symbolBytes symbols) (byte : rec.cls = cls.byte) :
    rec.entry = .some (i, .some { symbols := symbols, cls := cls }) := by
  unfold LoadPrefixRec.entry
  rw [finOf_eq index, present, length, bytes, byte, prefixClassOf_byte, mapAll_symbolBytes]
  exact if_pos (inRange_iff.mpr ⟨some, fits⟩)

theorem LoadPrefixRec.entry_of_outOfRange {rec : LoadPrefixRec} (h : rec.OutOfRange) : rec.entry = none := by
  unfold LoadPrefixRec.entry
  unfold LoadPrefixRec.OutOfRange at h
  split
  · rename_i i index present
    have index' := finOf_eq_some_iff.mp index
    have present' := flagOf_eq_some_iff.mp present
    simp [present', index'] at h
    omega
  · rename_i i index present
    have index' := finOf_eq_some_iff.mp index
    have present' := flagOf_eq_some_iff.mp present
    split
    · rename_i length
      obtain ⟨low, high⟩ := inRange_iff.mp length
      have late : (∃ b ∈ rec.symbols.toList.take rec.length.toNat, 12 ≤ b.toNat) ∨ 15 < rec.cls.toNat := by
        simp only [present', if_true] at h
        rcases h with k | k | ⟨-, k | k | k⟩
        · omega
        · simp at k
        · omega
        · omega
        · exact k
      rcases late with ⟨b, mem, big⟩ | big
      · rw [mapAll_eq_none mem (finOf_eq_none big)]
      · rw [prefixClassOf_eq_none big]
        split
        · rename_i none; cases none
        · rfl
    · rfl
  · rfl

theorem LoadBandRec.entry_absent {rec : LoadBandRec} {c : ClassId} {b : Fin 4} (cls : rec.cls.toNat = c.val)
    (band : rec.band.toNat = b.val) (h : rec.present = 0) : rec.entry = some (c, b, none) := by
  unfold LoadBandRec.entry
  rw [finOf_eq cls, finOf_eq band, h]
  rfl

theorem LoadBandRec.entry_present {rec : LoadBandRec} {c : ClassId} {b : Fin 4} {days : DaySet}
    (cls : rec.cls.toNat = c.val) (band : rec.band.toNat = b.val) (present : rec.present = 1)
    (daySet : rec.daySet = days.byte) (start : rec.start.toNat ≤ 86399) (low : 1 ≤ rec.period.toNat)
    (high : rec.period.toNat ≤ 3600) :
    rec.entry = some (c, b, some
      { daySet := days, start := rec.start.toNat, period := rec.period.toNat
        unitCharge := rec.unitCharge.toNat, setupCharge := rec.setupCharge.toNat }) := by
  unfold LoadBandRec.entry
  rw [finOf_eq cls, finOf_eq band, present, daySet, daySetOf_byte]
  exact if_pos (by simp [inRange_iff, start, low, high])

theorem LoadBandRec.entry_of_outOfRange {rec : LoadBandRec} (h : rec.OutOfRange) : rec.entry = none := by
  unfold LoadBandRec.entry
  unfold LoadBandRec.OutOfRange at h
  split
  · rename_i c i cls band present
    have cls' := finOf_eq_some_iff.mp cls
    have band' := finOf_eq_some_iff.mp band
    have present' := flagOf_eq_some_iff.mp present
    simp [present'] at h
    omega
  · rename_i c i cls band present
    have cls' := finOf_eq_some_iff.mp cls
    have band' := finOf_eq_some_iff.mp band
    have present' := flagOf_eq_some_iff.mp present
    split
    · rename_i days found
      have small : rec.daySet.toNat < 3 := Nat.lt_of_not_le fun k => by rw [daySetOf_eq_none k] at found; cases found
      refine if_neg ?_
      simp [present'] at h
      simp [inRange_iff]
      omega
    · rfl
  · rfl

theorem SetPolicyRec.entry_absent {rec : SetPolicyRec} {i : Fin 8} (index : rec.index.toNat = i.val)
    (h : rec.present = 0) : rec.entry = some (i, none) := by
  unfold SetPolicyRec.entry
  rw [finOf_eq index, h]
  rfl

theorem SetPolicyRec.entry_present {rec : SetPolicyRec} {i : Fin 8} (index : rec.index.toNat = i.val)
    (present : rec.present = 1) (h : ¬ rec.OutOfRange) :
    rec.entry = some (i, some
      { limit := rec.limit.toNat
        intervals := (rec.intervals.toList.take rec.count.toNat).map BitVec.toNat
        outcomes := rec.outcomes.extractLsb' 0 5 }) := by
  unfold SetPolicyRec.OutOfRange at h
  push Not at h
  obtain ⟨-, -, h⟩ := h
  obtain ⟨limit, limit', count, count', intervals, outcomes⟩ := h present
  unfold SetPolicyRec.entry
  rw [finOf_eq index, present]
  refine if_pos ?_
  simp only [Bool.and_eq_true, inRange_iff, List.all_eq_true, List.mem_map, decide_eq_true_eq]
  refine ⟨⟨⟨⟨by omega, limit'⟩, by omega, count'⟩, ?_⟩, outcomes⟩
  rintro k ⟨b, mem, rfl⟩
  exact intervals b mem

theorem SetPolicyRec.entry_of_outOfRange {rec : SetPolicyRec} (h : rec.OutOfRange) : rec.entry = none := by
  unfold SetPolicyRec.entry
  unfold SetPolicyRec.OutOfRange at h
  split
  · rename_i i index present
    have index' := finOf_eq_some_iff.mp index
    have present' := flagOf_eq_some_iff.mp present
    simp [present'] at h
    omega
  · rename_i i index present
    have index' := finOf_eq_some_iff.mp index
    have present' := flagOf_eq_some_iff.mp present
    refine if_neg fun valid => ?_
    simp only [Bool.and_eq_true, inRange_iff, List.all_eq_true, List.mem_map, decide_eq_true_eq] at valid
    obtain ⟨⟨⟨limit, count⟩, intervals⟩, outcomes⟩ := valid
    rcases h with k | k | ⟨-, k | k | k | k | ⟨b, mem, k⟩ | k⟩
    · omega
    · simp [present'] at k
    any_goals omega
    all_goals have := intervals _ ⟨b, mem, rfl⟩; omega
  · rfl

theorem SetLineRec.settings_of_inRange {rec : SetLineRec} {l : LineId} (h : rec.InRange) (line : rec.line.toNat = l.val) :
    rec.settings = some (l, decide (rec.enable = 1), rec.params) := by
  obtain ⟨-, enable, required, qualify, seize, answer, tone, gap, guard⟩ := h
  unfold SetLineRec.settings
  rw [finOf_eq line, flagOf_of_lt enable, flagOf_of_lt required]
  exact if_pos (by simp only [Bool.and_eq_true, inRange_iff]; tauto)

theorem SetLineRec.settings_of_not_inRange {rec : SetLineRec} (h : ¬ rec.InRange) : rec.settings = none := by
  unfold SetLineRec.settings
  split
  · rename_i l enable required line enable' required'
    refine if_neg fun valid => h ?_
    simp only [Bool.and_eq_true, inRange_iff] at valid
    obtain ⟨⟨⟨⟨⟨qualify, seize⟩, answer⟩, tone⟩, gap⟩, guard⟩ := valid
    exact ⟨finOf_eq_some_iff.mp line ▸ l.isLt, flagOf_lt enable', flagOf_lt required', qualify, seize, answer, tone, gap,
      guard⟩
  · rfl

/-! ## The answers -/

theorem State.answerConfig_done (s : State) (tag : Half) (kind : Byte) (f : Retained → Retained) :
    s.answerConfig tag kind (some f)
      = ({ s with retained := f s.retained } : State).replied tag kind .done none false := rfl

theorem State.answerConfig_bad (s : State) (tag : Half) (kind : Byte) :
    s.answerConfig tag kind none = s.replied tag kind .badRequest none false := rfl

section
variable {r : OrderRing} {s : State} (ready : s.ReadyToTake r .doneSlot)
include ready

/-! ## LOAD_PREFIX, LOAD_BAND, SET_POLICY, SET_CLOCK -/

theorem exec_loadPrefix_of_ready (rec : LoadPrefixRec) :
    exec (.loadPrefix r .ok rec) s
      = .next (((s.atTake r rec.cells).answerConfig rec.tag 0x11 (loadPrefixChange rec)).afterTake r) :=
  exec_take_of_ready rfl rfl rfl ready

theorem exec_loadPrefix_of_entry {rec : LoadPrefixRec} {i : Fin 64} {e : Option PrefixEntry}
    (h : rec.entry = some (i, e)) :
    exec (.loadPrefix r .ok rec) s
      = .next ((({ s.atTake r rec.cells with
          retained := s.retained.setPrefixes (s.retained.prefixes.set i e) }).replied rec.tag 0x11 .done none
          false).afterTake r) := by
  rw [exec_loadPrefix_of_ready ready, loadPrefixChange, h]
  rfl

theorem exec_loadBand_of_ready (rec : LoadBandRec) :
    exec (.loadBand r .ok rec) s
      = .next (((s.atTake r rec.cells).answerConfig rec.tag 0x12 (loadBandChange rec)).afterTake r) :=
  exec_take_of_ready rfl rfl rfl ready

theorem exec_loadBand_of_entry {rec : LoadBandRec} {c : ClassId} {b : Fin 4} {e : Option Band}
    (h : rec.entry = some (c, b, e)) :
    exec (.loadBand r .ok rec) s
      = .next ((({ s.atTake r rec.cells with
          retained := s.retained.setBands (s.retained.bands.set c (s.retained.bands[c].set b e)) }).replied rec.tag
          0x12 .done none false).afterTake r) := by
  rw [exec_loadBand_of_ready ready, loadBandChange, h]
  rfl

theorem exec_setPolicy_of_ready (rec : SetPolicyRec) :
    exec (.setPolicy r .ok rec) s
      = .next (((s.atTake r rec.cells).answerConfig rec.tag 0x13 (setPolicyChange rec)).afterTake r) :=
  exec_take_of_ready rfl rfl rfl ready

theorem exec_setPolicy_of_entry {rec : SetPolicyRec} {i : Fin 8} {e : Option Policy} (h : rec.entry = some (i, e)) :
    exec (.setPolicy r .ok rec) s
      = .next ((({ s.atTake r rec.cells with
          retained := s.retained.setPolicies (s.retained.policies.set i e) }).replied rec.tag 0x13 .done none
          false).afterTake r) := by
  rw [exec_setPolicy_of_ready ready, setPolicyChange, h]
  rfl

theorem exec_setClock_of_ready (rec : SetClockRec) :
    exec (.setClock r .ok rec) s
      = .next (((s.atTake r rec.cells).answerConfig rec.tag 0x15 (setClockChange rec)).afterTake r) :=
  exec_take_of_ready rfl rfl rfl ready

theorem exec_setClock_of_valid {rec : SetClockRec} (h : rec.second.toNat ≤ 86399) :
    exec (.setClock r .ok rec) s
      = .next ((({ s.atTake r rec.cells with
          retained := s.retained.setCalendar
            { day := rec.day, second := rec.second.toNat, ms := 0, valid := true } }).replied rec.tag 0x15 .done none
          false).afterTake r) := by
  rw [exec_setClock_of_ready ready, setClockChange, SetClockRec.valid, if_pos (decide_eq_true h)]
  rfl

/-! ## SET_LINE -/

theorem exec_setLine_of_ready (rec : SetLineRec) :
    exec (.setLine r .ok rec) s = .next (((s.atTake r rec.cells).actSetLine rec).afterTake r) :=
  exec_take_of_ready rfl rfl rfl ready

end

/-- SET_LINE in its range on a line whose state the enable field does not act on (R35). -/
theorem State.actSetLine_none {u : State} {rec : SetLineRec} {l : LineId} (inRange : rec.InRange)
    (line : rec.line.toNat = l.val) (h : enableEffect (u.line l).state (decide (rec.enable = 1)) = .none) :
    u.actSetLine rec
      = (u.withLine l { u.line l with stored := rec.params }).replied rec.tag 0x10 .done none false := by
  unfold State.actSetLine
  rw [SetLineRec.settings_of_inRange inRange line]
  dsimp only
  rw [h]
  dsimp only
  rw [State.modLine_eq_withLine]
  rfl

theorem State.actSetLine_disable {u : State} {rec : SetLineRec} {l : LineId} (inRange : rec.InRange)
    (line : rec.line.toNat = l.val) (h : enableEffect (u.line l).state (decide (rec.enable = 1)) = .disable) :
    u.actSetLine rec
      = (({ u.withLine l { u.line l with stored := rec.params, state := .disabled } with
          freeLines := u.freeLines.filter fun k => decide (k ≠ l) } : State).replied rec.tag 0x10 .done none
          false).sweep.pass := by
  unfold State.actSetLine
  rw [SetLineRec.settings_of_inRange inRange line]
  dsimp only
  rw [h]
  dsimp only
  rw [State.modLine_eq_withLine u, State.withLine_modLine]
  rfl

theorem State.actSetLine_enable {u : State} {rec : SetLineRec} {l : LineId} (inRange : rec.InRange)
    (line : rec.line.toNat = l.val) (h : enableEffect (u.line l).state (decide (rec.enable = 1)) = .enable) :
    u.actSetLine rec
      = (({ u.withLine l { u.line l with stored := rec.params, state := .idle } with
          freeLines := u.freeLines ++ [l] } : State).replied rec.tag 0x10 .done none false).pass := by
  unfold State.actSetLine
  rw [SetLineRec.settings_of_inRange inRange line]
  dsimp only
  rw [h]
  dsimp only
  rw [State.modLine_eq_withLine u, State.withLine_modLine]
  rfl

theorem State.actSetLine_pending {u : State} {rec : SetLineRec} {l : LineId} {set : Bool} (inRange : rec.InRange)
    (line : rec.line.toNat = l.val) (h : enableEffect (u.line l).state (decide (rec.enable = 1)) = .pending set) :
    u.actSetLine rec
      = (u.withLine l { u.line l with stored := rec.params, disablePending := set }).replied rec.tag 0x10 .done none
          false := by
  unfold State.actSetLine
  rw [SetLineRec.settings_of_inRange inRange line]
  dsimp only
  rw [h]
  dsimp only
  rw [State.modLine_eq_withLine u, State.withLine_modLine]
  rfl

/-! ## The obligations -/

/-- Settles O33: each operation is one take whose meaning changes the account and replies. -/
theorem accountOperationsActAtTheTake : Obligations.AccountOperationsActAtTheTake := by
  unfold Obligations.AccountOperationsActAtTheTake
  intro r tag a limited limit s ready x
  exact ⟨exec_take_of_ready rfl rfl rfl ready, exec_take_of_ready rfl rfl rfl ready,
    exec_take_of_ready rfl rfl rfl ready, exec_take_of_ready rfl rfl rfl ready, exec_take_of_ready rfl rfl rfl ready⟩

/-- Settles O34: fields in their ranges give the entry that the take puts into the table. -/
theorem tablesTakeValidEntries : Obligations.TablesTakeValidEntries := by
  unfold Obligations.TablesTakeValidEntries
  intro r s ready
  refine ⟨fun rec i symbols cls index => ⟨fun absent => ?_, fun present some fits length bytes byte => ?_⟩,
    fun rec c b days cls band => ⟨fun absent => ?_, fun present daySet start low high => ?_⟩,
    fun rec i index => ⟨fun absent => ?_, fun present inRange => ?_⟩, fun rec valid => ?_⟩
  · exact exec_loadPrefix_of_entry ready (LoadPrefixRec.entry_absent index absent)
  · exact exec_loadPrefix_of_entry ready (LoadPrefixRec.entry_present index present some fits length bytes byte)
  · exact exec_loadBand_of_entry ready (LoadBandRec.entry_absent cls band absent)
  · exact exec_loadBand_of_entry ready (LoadBandRec.entry_present cls band present daySet start low high)
  · exact exec_setPolicy_of_entry ready (SetPolicyRec.entry_absent index absent)
  · exact exec_setPolicy_of_entry ready (SetPolicyRec.entry_present index present inRange)
  · exact exec_setClock_of_valid ready valid

/-- Settles O35: a field out of its range leaves no entry, and the take replies alone. -/
theorem badRequestsChangeNothing : Obligations.BadRequestsChangeNothing := by
  unfold Obligations.BadRequestsChangeNothing
  intro r s ready
  refine ⟨fun rec bad => ?_, fun kind tag unknown => ?_, fun rec bad => ?_, fun rec bad => ?_, fun rec bad => ?_,
    fun rec bad => ?_, fun rec bad => ?_⟩
  · have invalid : rec.isInvalid = true := by
      simp only [AccountRec.isInvalid, Bool.or_eq_true, Bool.and_eq_true, decide_eq_true_eq]
      rcases bad with k | k | k | ⟨k, flag⟩
      · exact .inl (.inl (.inl k))
      · exact .inl (.inl (.inr (by omega)))
      · exact .inl (.inr k)
      · exact .inr ⟨by rw [k]; rfl, flag⟩
    exact exec_take_of_ready (i := .accountInvalidOperation r .ok rec) rfl invalid rfl ready
  · have known : (Instr.unknownRequestKind r .ok kind tag).wellFormed = true := by
      simpa [Instr.wellFormed] using unknown
    exact exec_take_of_ready (i := .unknownRequestKind r .ok kind tag) rfl known (needOfKind_of_unknown unknown) ready
  · rw [exec_setLine_of_ready ready, State.actSetLine, SetLineRec.settings_of_not_inRange bad]
    rfl
  · rw [exec_loadPrefix_of_ready ready, loadPrefixChange, LoadPrefixRec.entry_of_outOfRange bad]
    rfl
  · rw [exec_loadBand_of_ready ready, loadBandChange, LoadBandRec.entry_of_outOfRange bad]
    rfl
  · rw [exec_setPolicy_of_ready ready, setPolicyChange, SetPolicyRec.entry_of_outOfRange bad]
    rfl
  · rw [exec_setClock_of_ready ready, setClockChange, SetClockRec.valid,
      if_neg (fun k => absurd (of_decide_eq_true k) (Nat.not_le.mpr bad))]
    rfl

/-- Settles O36: the enable field's effect, by the line state. -/
theorem setLineActsByLineState : Obligations.SetLineActsByLineState := by
  unfold Obligations.SetLineActsByLineState
  intro r rec l s ready inRange line u ln reply
  rw [exec_setLine_of_ready ready]
  refine ⟨fun h => ?_, fun idle off => ?_, fun lost on => ?_, fun busy => ?_⟩
  · rw [State.actSetLine_none inRange line]
    · rfl
    · rcases h with ⟨state, enable⟩ | ⟨state, enable⟩
      · rw [show ((s.atTake r rec.cells).line l).state = _ from state, enable]
        rfl
      · simp only [List.mem_cons, List.not_mem_nil, or_false] at state
        rcases state with state | state <;> rw [show ((s.atTake r rec.cells).line l).state = _ from state, enable] <;> rfl
  · rw [State.actSetLine_disable inRange line]
    · rfl
    · rw [show ((s.atTake r rec.cells).line l).state = _ from idle, off]
      rfl
  · rw [State.actSetLine_enable inRange line]
    · rfl
    · simp only [List.mem_cons, List.not_mem_nil, or_false] at lost
      rcases lost with state | state <;> rw [show ((s.atTake r rec.cells).line l).state = _ from state, on] <;> rfl
  · rw [State.actSetLine_pending (set := decide (rec.enable = 0)) inRange line]
    · rfl
    · have flag : decide (rec.enable = 0) = !decide (rec.enable = 1) := by
        have enable := flagOf_eq_some_iff.mp (flagOf_of_lt inRange.2.1)
        by_cases one : rec.enable = 1
        · rw [one]; rfl
        · rw [decide_eq_false one] at enable ⊢
          rw [enable]; rfl
      rw [flag]
      change (s.line l).state ∉ _ at busy
      show enableEffect (s.line l).state _ = _
      cases state : (s.line l).state <;> rw [state] at busy <;> simp at busy <;> rfl

end Sys2Proof.Machine
end

section
/-! PROOF. The ends of contexts in the terms of the statements (R9, R11, R73, R74), and CANCEL and RELEASE (R18, R19). -/

namespace Sys2Proof.Machine

/-! ## The ending step of a context -/

theorem Context.afterEnd_eq_ended (x : Context) (o : CallOutcome) :
    x.afterEnd o = x.ended (if x.lineLeft.isSome then some o else x.lastOutcome) o := rfl

/-- The bookkeeping of the ending step (R136), from the retained domain it leaves. -/
theorem State.endBooked_of_retained {s t : State} {c : CtxId} (h : t.retained = s.afterEndRetained c) :
    s.EndBooked t c := by
  unfold State.afterEndRetained at h
  unfold State.EndBooked
  cases account : (s.ctx c).account with
  | none => simpa [account] using h
  | some a =>
    dsimp only
    by_cases answered : (s.ctx c).direction = .outbound ∧ (s.ctx c).stamp.isSome = true
    · rw [if_pos answered, account] at h
      rw [if_pos answered]
      refine ⟨?_, fun b other => ?_, ?_, ?_⟩
      · rw [State.account, h]
        simp [Retained.modAccount, Retained.setAccounts, Account.callEnded, State.account]
      · rw [State.account, h]
        simp [Retained.modAccount, Retained.setAccounts, State.account, Fin.val_ne_of_ne other.symm]
      · rw [h]; exact isSound_checkOf _
      · rw [h]; rfl
    · rw [if_neg answered] at h
      rw [if_neg answered]
      exact h

/-- The ending step of a context (R11), whatever place it leaves. -/
theorem State.endContext_ends (s : State) (c : CtxId) (o : CallOutcome) :
    s.EndsContext (s.endContext c o) c (if (s.ctx c).lineLeft.isSome then some o else (s.ctx c).lastOutcome) o where
  ctx := s.endContext_ctx_same c o
  others := s.endContext_others c o
  booked := State.endBooked_of_retained (s.endContext_retained c o)
  report := s.endContext_report c o
  free := s.endContext_freeLines c o
  keeps := s.endContext_keeps c o

theorem Context.lineLeft_of_not_onLine {x : Context} (h : x.state ≠ .onLine) : x.lineLeft = none := if_neg h

theorem Context.lineLeft_of_onLine {x : Context} {l : LineId} (state : x.state = .onLine) (line : x.currentLine = some l) :
    x.lineLeft = some l := (if_pos state).trans line

/-- A context that is not ON_LINE ends: no line changes (R11). -/
theorem State.endContext_ends_off {s : State} {c : CtxId} (h : (s.ctx c).state ≠ .onLine) (o : CallOutcome) :
    s.EndsContext (s.endContext c o) c (s.ctx c).lastOutcome o ∧ s.SameLines (s.endContext c o) := by
  have ends := s.endContext_ends c o
  rw [Context.lineLeft_of_not_onLine h] at ends
  refine ⟨ends, fun l => ?_⟩
  rw [State.endContext_line, State.endContext_meter, Context.lineLeft_of_not_onLine h,
    if_neg fun k => Option.noConfusion rfl (heq_of_eq k.1), if_neg fun k => Option.noConfusion rfl (heq_of_eq k.1)]
  exact ⟨rfl, rfl⟩

/-! ## A line cleared -/

theorem Line.toClearing_eq_cleared (ln : Line) : ln.toClearing = ln.cleared := rfl

theorem State.clearLine_clears {s : State} {l : LineId} (h : (s.line l).state.offHook = true) :
    s.ClearsLine (s.clearLine l) l := by
  refine ⟨?_, ?_, fun k other => ?_⟩
  · rw [State.clearLine_line, if_pos ⟨rfl, h⟩, Line.toClearing_eq_cleared]
  · rw [State.clearLine_meter, if_pos ⟨rfl, h⟩]
  · rw [State.clearLine_line, State.clearLine_meter, if_neg fun k => other k.1, if_neg fun k => other k.1]
    exact ⟨rfl, rfl⟩

/-- An ON_LINE context ended by the host or the engine: its line clears with it (R9, R74). -/
theorem State.endContext_endsOnLine {s : State} {c : CtxId} {l : LineId} (onLine : (s.ctx c).state = .onLine)
    (current : (s.ctx c).currentLine = some l) (offHook : (s.line l).state.offHook = true) (o : CallOutcome) :
    s.EndsOnLine (s.endContext c o) l c o o := by
  have left := Context.lineLeft_of_onLine onLine current
  have ends := s.endContext_ends c o
  rw [left] at ends
  refine ⟨ends, ⟨?_, ?_, fun k other => ?_⟩, ?_, ?_⟩
  · rw [State.endContext_line, if_pos ⟨left, offHook⟩, Line.toClearing_eq_cleared]
  · rw [State.endContext_meter, if_pos ⟨left, offHook⟩]
  · have away : ¬ (s.ctx c).lineLeft = some k := fun same => other (Option.some.inj (left.symm.trans same)).symm
    rw [State.endContext_line, State.endContext_meter, if_neg fun k => away k.1, if_neg fun k => away k.1]
    exact ⟨rfl, rfl⟩
  · rw [State.endContext_waiting, onLine]; exact if_neg CtxState.noConfusion
  · rw [State.endContext_schedule, onLine]; exact if_neg CtxState.noConfusion

/-! ## The target of a CANCEL or RELEASE -/

theorem State.activeWithTag_of_alone {s : State} {c : CtxId} {tag : Half} (h : s.CarriesAlone c tag) :
    s.activeWithTag tag = some c := by
  cases found : s.activeWithTag tag with
  | none => exact absurd ((h c).mpr rfl).2 (State.activeWithTag_none.mp found c ((h c).mpr rfl).1)
  | some d => rw [(h d).mp (State.activeWithTag_some found)]

theorem State.endedWithTag_iff {s : State} {tag : Half} :
    s.endedWithTag tag = true ↔ ∃ d : CtxId, (s.ctx d).state = .ended ∧ (s.ctx d).tag = tag := by
  simp [State.endedWithTag, mem_allContexts]

theorem State.missStatus_missed (s : State) (target : Half) : s.MissedStatus target (s.missStatus target) := by
  unfold State.missStatus
  refine ⟨fun some => if_pos (State.endedWithTag_iff.mpr some), fun none => if_neg fun found => ?_⟩
  obtain ⟨d, ended, same⟩ := State.endedWithTag_iff.mp found
  exact none d ended same

theorem State.isConnected_of_line {s : State} {c : CtxId} {l : LineId} (state : (s.ctx c).state = .onLine)
    (current : (s.ctx c).currentLine = some l) :
    s.isConnected c = decide ((s.line l).state ∈ [LineState.connected, .connectedIn]) := by
  unfold State.isConnected
  rw [state, current]
  simp

theorem State.isConnected_of_not_onLine {s : State} {c : CtxId} (h : (s.ctx c).state ≠ .onLine) :
    s.isConnected c = false := by
  unfold State.isConnected
  cases state : (s.ctx c).state with
  | onLine => exact absurd state h
  | free | pending | retryWait | ended => rfl

/-! ## CANCEL -/

section
variable {r : OrderRing} {s : State} (ready : s.ReadyToTake r .doneSlot) (rec : TargetRec)

/-- The state behind the reply of a CANCEL or RELEASE. -/
def State.answered (s : State) (r : OrderRing) (rec : TargetRec) (kind : Byte) (status : DoneStatus) : State :=
  (s.atTake r (rec.cells kind)).replied rec.tag kind status none (rec.flags.getLsbD 0)

include ready

theorem exec_cancel_of_target {c : CtxId} (target : s.CarriesAlone c rec.target) :
    exec (.cancel r .ok rec) s
      = .next ((if (s.ctx c).state = .pending then
          ((s.answered r rec 0x03 .done).endContext c .cancelled).pass
          else (s.answered r rec 0x03 .done).endContext c .cancelled).afterTake r) := by
  rw [exec_take_of_ready (i := .cancel r .ok rec) rfl rfl rfl ready]
  show Host.Outcome.next (((s.atTake r _).actCancel rec).afterTake r) = _
  unfold State.actCancel
  rw [show (s.atTake r (rec.cells 0x03)).activeWithTag rec.target = some c from State.activeWithTag_of_alone target]
  rfl

theorem exec_cancel_of_missed (unused : s.TagUnused rec.target) :
    exec (.cancel r .ok rec) s = .next ((s.answered r rec 0x03 (s.missStatus rec.target)).afterTake r) := by
  rw [exec_take_of_ready (i := .cancel r .ok rec) rfl rfl rfl ready]
  show Host.Outcome.next (((s.atTake r _).actCancel rec).afterTake r) = _
  unfold State.actCancel
  rw [show (s.atTake r (rec.cells 0x03)).activeWithTag rec.target = none from State.activeWithTag_none.mpr unused]
  rfl

/-! ## RELEASE -/

theorem exec_release_of_target {c : CtxId} (target : s.CarriesAlone c rec.target) :
    exec (.release r .ok rec) s
      = .next ((if s.isConnected c then (s.answered r rec 0x04 .done).endContext c .completedNear
          else s.answered r rec 0x04 .notConnected).afterTake r) := by
  rw [exec_take_of_ready (i := .release r .ok rec) rfl rfl rfl ready]
  show Host.Outcome.next (((s.atTake r _).actRelease rec).afterTake r) = _
  unfold State.actRelease
  rw [show (s.atTake r (rec.cells 0x04)).activeWithTag rec.target = some c from State.activeWithTag_of_alone target]
  rfl

theorem exec_release_of_missed (unused : s.TagUnused rec.target) :
    exec (.release r .ok rec) s = .next ((s.answered r rec 0x04 (s.missStatus rec.target)).afterTake r) := by
  rw [exec_take_of_ready (i := .release r .ok rec) rfl rfl rfl ready]
  show Host.Outcome.next (((s.atTake r _).actRelease rec).afterTake r) = _
  unfold State.actRelease
  rw [show (s.atTake r (rec.cells 0x04)).activeWithTag rec.target = none from State.activeWithTag_none.mpr unused]
  rfl

end

/-! ## The obligations -/

/-- Settles O37: the end of the target, by the state it is in. -/
theorem cancelEndsItsTarget : Obligations.CancelEndsItsTarget := by
  unfold Obligations.CancelEndsItsTarget
  intro r rec s ready u
  refine ⟨fun c target => ⟨fun pending => ?_, fun retrying => ?_, fun l onLine current offHook => ?_⟩, fun unused => ?_⟩
  · have off : ((s.answered r rec 0x03 .done).ctx c).state ≠ .onLine := by
      show (s.ctx c).state ≠ _; rw [pending]; exact CtxState.noConfusion
    obtain ⟨ends, lines⟩ := State.endContext_ends_off off .cancelled
    refine ⟨_, ?_, ends, lines, ?_, ?_⟩
    · rw [exec_cancel_of_target ready rec target, if_pos pending]
    · rw [State.endContext_waiting]; exact if_pos pending
    · rw [State.endContext_schedule]; exact if_neg (by show (s.ctx c).state ≠ _; rw [pending]; exact CtxState.noConfusion)
  · have off : ((s.answered r rec 0x03 .done).ctx c).state ≠ .onLine := by
      show (s.ctx c).state ≠ _; rw [retrying]; exact CtxState.noConfusion
    have waits : (s.ctx c).state ≠ .pending := by rw [retrying]; exact CtxState.noConfusion
    obtain ⟨ends, lines⟩ := State.endContext_ends_off off .cancelled
    refine ⟨_, ?_, ends, lines, ?_, ?_⟩
    · rw [exec_cancel_of_target ready rec target, if_neg waits]
    · rw [State.endContext_waiting]; exact if_neg waits
    · rw [State.endContext_schedule]; exact if_pos retrying
  · refine ⟨_, ?_, State.endContext_endsOnLine (s := s.answered r rec 0x03 .done) onLine current offHook .cancelled⟩
    rw [exec_cancel_of_target ready rec target, if_neg (by rw [onLine]; exact CtxState.noConfusion)]
  · exact ⟨_, s.missStatus_missed rec.target, exec_cancel_of_missed ready rec unused⟩

/-- Settles O38: a connected target ends on its line, any other is answered alone. -/
theorem releaseEndsAConnectedCall : Obligations.ReleaseEndsAConnectedCall := by
  unfold Obligations.ReleaseEndsAConnectedCall
  intro r rec s ready u
  refine ⟨fun c l target onLine current connected => ?_, fun c target away => ?_, fun unused => ?_⟩
  · have offHook : (s.line l).state.offHook = true := by
      simp only [List.mem_cons, List.not_mem_nil, or_false] at connected
      rcases connected with h | h <;> rw [h] <;> rfl
    refine ⟨_, ?_, State.endContext_endsOnLine (s := s.answered r rec 0x04 .done) onLine current offHook
      .completedNear⟩
    rw [exec_release_of_target ready rec target, State.isConnected_of_line onLine current,
      if_pos (decide_eq_true connected)]
  · have not : s.isConnected c = false := by
      by_cases onLine : (s.ctx c).state = .onLine
      · obtain ⟨l, current, other⟩ := away.resolve_left (not_not.mpr onLine)
        rw [State.isConnected_of_line onLine current, decide_eq_false other]
      · exact State.isConnected_of_not_onLine onLine
    rw [exec_release_of_target ready rec target, if_neg (by rw [not]; exact Bool.noConfusion)]
    rfl
  · exact ⟨_, s.missStatus_missed rec.target, exec_release_of_missed ready rec unused⟩

end Sys2Proof.Machine
end

section
/-! PROOF. The searches of the tariff unit: the deciding entry of the table of prefixes (R117) and the band in force (R120) are
one search, for the best entry of a table and the lowest index among equals. -/

namespace Sys2Proof.Machine

/-! ## The best entry of a table -/

section
variable {α : Type}

/-- Among the present entries that `p` accepts, one with the greatest key, the lowest index among equals. -/
def bestOf (p : α → Bool) (key : α → Nat) : List (Option α) → Option α
  | [] => none
  | none :: rest => bestOf p key rest
  | some x :: rest =>
    if p x then
      match bestOf p key rest with
      | some y => if key x < key y then some y else some x
      | none => some x
    else bestOf p key rest

/-- Entry `x` at index `i` is the best of a list. -/
structure BestAt (p : α → Bool) (key : α → Nat) (l : List (Option α)) (i : Nat) (x : α) : Prop where
  here : l[i]? = some (some x)
  accepted : p x = true
  top : ∀ (j : Nat) (y : α), l[j]? = some (some y) → p y = true → key y < key x ∨ (key y = key x ∧ i ≤ j)

variable {p : α → Bool} {key : α → Nat}

theorem BestAt.skip {o : Option α} {rest : List (Option α)} {i : Nat} {x : α} (h : BestAt p key rest i x)
    (head : ∀ y, o = some y → p y = true → key y < key x) : BestAt p key (o :: rest) (i + 1) x where
  here := h.here
  accepted := h.accepted
  top
    | 0, y, found, fits => .inl (head y (Option.some.inj found) fits)
    | j + 1, y, found, fits => (h.top j y found fits).imp_right fun ⟨same, le⟩ => ⟨same, Nat.succ_le_succ le⟩

theorem bestOf_none {l : List (Option α)} (h : bestOf p key l = none) (j : Nat) (y : α)
    (found : l[j]? = some (some y)) : p y = false := by
  induction l generalizing j with
  | nil => cases found
  | cons o rest ih =>
    cases o with
    | none =>
      cases j with
      | zero => cases found
      | succ j => exact ih h j found
    | some x =>
      unfold bestOf at h
      split at h
      · split at h
        · split at h <;> cases h
        · cases h
      · rename_i refused
        cases j with
        | zero => cases found; exact Bool.eq_false_iff.mpr refused
        | succ j => exact ih h j found

theorem bestOf_some {l : List (Option α)} {x : α} (h : bestOf p key l = some x) : ∃ i, BestAt p key l i x := by
  induction l generalizing x with
  | nil => cases h
  | cons o rest ih =>
    cases o with
    | none =>
      obtain ⟨i, best⟩ := ih h
      exact ⟨i + 1, best.skip fun y k => by cases k⟩
    | some y =>
      unfold bestOf at h
      split at h
      · rename_i fits
        cases others : bestOf p key rest with
        | some z =>
          rw [others] at h ih
          obtain ⟨i, best⟩ := ih rfl
          dsimp only at h
          split at h
          · rename_i less
            cases h
            exact ⟨i + 1, best.skip fun y k _ => by cases k; exact less⟩
          · rename_i least
            cases h
            refine ⟨0, rfl, fits, fun j w found accepted => ?_⟩
            cases j with
            | zero => cases found; exact .inr ⟨rfl, le_refl 0⟩
            | succ j =>
              have := best.top j w found accepted
              omega
        | none =>
          rw [others] at h
          cases h
          refine ⟨0, rfl, fits, fun j w found accepted => ?_⟩
          cases j with
          | zero => cases found; exact .inr ⟨rfl, le_refl 0⟩
          | succ j =>
            rw [bestOf_none others j w found] at accepted
            cases accepted
      · rename_i refused
        obtain ⟨i, best⟩ := ih h
        exact ⟨i + 1, best.skip fun z k fits => by cases k; exact absurd fits refused⟩

theorem BestAt.unique {l : List (Option α)} {i j : Nat} {x y : α} (hx : BestAt p key l i x) (hy : BestAt p key l j y) :
    x = y := by
  have one := hx.top j y hy.here hy.accepted
  have two := hy.top i x hx.here hx.accepted
  have same : i = j := by omega
  have := hx.here
  rw [same, hy.here] at this
  exact (Option.some.inj (Option.some.inj this)).symm

theorem bestOf_eq_some {l : List (Option α)} {i : Nat} {x : α} (h : BestAt p key l i x) : bestOf p key l = some x := by
  cases found : bestOf p key l with
  | none =>
    have := bestOf_none found i x h.here
    rw [h.accepted] at this
    cases this
  | some y =>
    obtain ⟨j, best⟩ := bestOf_some found
    rw [best.unique h]

theorem bestOf_eq_none {l : List (Option α)} (h : ∀ (j : Nat) (y : α), l[j]? = some (some y) → p y = false) :
    bestOf p key l = none := by
  cases found : bestOf p key l with
  | none => rfl
  | some y =>
    obtain ⟨j, best⟩ := bestOf_some found
    have := h j y best.here
    rw [best.accepted] at this
    cases this

/-- The entries of a table, by their indices. -/
theorem toList_getElem?_eq_some {n : Nat} {v : Vector (Option α) n} {j : Nat} {y : α}
    (h : v.toList[j]? = some (some y)) : ∃ i : Fin n, i.val = j ∧ v[i] = some y := by
  obtain ⟨small, same⟩ := List.getElem?_eq_some_iff.mp h
  rw [Vector.length_toList] at small
  exact ⟨⟨j, small⟩, rfl, by rw [← same]; simp⟩

theorem getElem?_toList {n : Nat} {v : Vector (Option α) n} {i : Fin n} {o : Option α} (h : v[i] = o) :
    v.toList[i.val]? = some o := by
  rw [List.getElem?_eq_getElem (by simp), ← h]
  simp

/-- The best entry of a table, told by the index in the table. -/
theorem bestOf_table {n : Nat} {v : Vector (Option α) n} {q : α → Prop} (accepts : ∀ x, p x = true ↔ q x) {i : Fin n}
    {x : α} (here : v[i] = some x) (fits : q x)
    (top : ∀ (j : Fin n) (y : α), v[j] = some y → q y → key y < key x ∨ (key y = key x ∧ i ≤ j)) :
    bestOf p key v.toList = some x := by
  refine bestOf_eq_some (i := i) ⟨getElem?_toList here, (accepts x).mpr fits, fun j y found accepted => ?_⟩
  obtain ⟨k, same, at'⟩ := toList_getElem?_eq_some found
  exact (top k y at' ((accepts y).mp accepted)).imp_right fun ⟨eq, le⟩ => ⟨eq, same ▸ le⟩

theorem bestOf_table_none {n : Nat} {v : Vector (Option α) n} {q : α → Prop} (accepts : ∀ x, p x = true ↔ q x)
    (none : ∀ (j : Fin n) (y : α), v[j] = some y → ¬ q y) : bestOf p key v.toList = .none :=
  bestOf_eq_none fun j y found => by
    obtain ⟨k, -, at'⟩ := toList_getElem?_eq_some found
    exact Bool.eq_false_iff.mpr fun accepted => none k y at' ((accepts y).mp accepted)

end

/-! ## The band in force -/

theorem latestBand_eq_bestOf (fits : Band → Bool) (bands : List (Option Band)) :
    latestBand fits bands = bestOf fits Band.start bands := by
  induction bands with
  | nil => rfl
  | cons o rest ih =>
    cases o with
    | none => exact ih
    | some b => unfold latestBand bestOf; rw [ih]; cases bestOf fits Band.start rest <;> rfl

/-- A band's day set contains a day of the week (R119). -/
def Band.OnDay (b : Band) (d : Nat) : Prop :=
  match b.daySet with
  | .all => True
  | .workdays => d ≤ 4
  | .restdays => 5 ≤ d

theorem Band.holds_iff (b : Band) (d : Nat) : b.daySet.holds d = true ↔ b.OnDay d := by
  unfold DaySet.holds Band.OnDay
  cases b.daySet <;> simp

theorem findSome?_first {n : Nat} {v : Vector (Option Band) n} {i : Fin n} {x : Band} (here : v[i] = some x)
    (before : ∀ j < i, v[j] = none) : v.toList.findSome? id = some x := by
  rw [List.findSome?_eq_some_iff]
  refine ⟨v.toList.take i.val, some x, v.toList.drop (i.val + 1), ?_, rfl, fun o mem => ?_⟩
  · have small : i.val < v.toList.length := by simp
    have at' : v.toList[i.val] = some x := by rw [← here]; simp
    rw [← at', List.getElem_cons_drop, List.take_append_drop]
  · obtain ⟨j, lt, same⟩ := List.mem_take_iff_getElem.mp mem
    have below : j < i.val := by omega
    have absent := before ⟨j, by omega⟩ below
    rw [← same]
    simpa using absent

theorem State.bandInForce_eq {s : State} {c : ClassId} {b : Option Band} (h : s.InForce c b) :
    bandInForce s.retained.calendar s.retained.bands[c].toList = b := by
  unfold State.InForce at h
  dsimp only at h
  have fits : ∀ x : Band, (x.daySet.holds (dayOfWeek s.retained.calendar.day)
      && decide (x.start ≤ s.retained.calendar.second)) = true
      ↔ x.OnDay (s.retained.calendar.day.toNat % 7) ∧ x.start ≤ s.retained.calendar.second := fun x => by
    rw [Bool.and_eq_true, Band.holds_iff, decide_eq_true_iff]
    rfl
  have onDay : ∀ x : Band, x.daySet.holds (yesterdayOf (dayOfWeek s.retained.calendar.day)) = true
      ↔ x.OnDay ((s.retained.calendar.day.toNat % 7 + 6) % 7) := fun x => x.holds_iff _
  unfold bandInForce
  split
  · rename_i valid
    rw [if_pos valid] at h
    dsimp only
    rw [latestBand_eq_bestOf, latestBand_eq_bestOf]
    rcases h with ⟨i, x, ⟨here, fitting, top⟩, rfl⟩ | ⟨noneFit, i, x, ⟨here, fitting, top⟩, rfl⟩ | ⟨noneFit, noneOn, rfl⟩
    · rw [bestOf_table fits here fitting top]
    · rw [bestOf_table_none fits noneFit, bestOf_table onDay here fitting top]
    · rw [bestOf_table_none fits noneFit, bestOf_table_none onDay noneOn]
  · rename_i invalid
    rw [if_neg invalid] at h
    rcases h with ⟨i, x, here, before, rfl⟩ | ⟨none, rfl⟩
    · exact findSome?_first here before
    · refine List.findSome?_eq_none_iff.mpr fun o mem => ?_
      obtain ⟨j, small, same⟩ := List.getElem_of_mem mem
      rw [Vector.length_toList] at small
      have absent := none ⟨j, small⟩
      rw [← same]
      simpa using absent

/-- Settles O53: the search of the model finds the band in force. -/
theorem priceIsThatOfTheBandInForce : Obligations.PriceIsThatOfTheBandInForce := by
  unfold Obligations.PriceIsThatOfTheBandInForce
  intro s c b inForce
  unfold State.priceNow
  dsimp only
  rw [State.bandInForce_eq inForce]
  cases b <;> rfl

/-! ## The table of prefixes -/

theorem decidingEntry_eq_bestOf (number : List (Fin 12)) (entries : List (Option PrefixEntry)) :
    decidingEntry number entries = bestOf (fun e => e.matchesNumber number) (fun e => e.symbols.length) entries := by
  induction entries with
  | nil => rfl
  | cons o rest ih =>
    cases o with
    | none => exact ih
    | some e => unfold decidingEntry bestOf; rw [ih]; generalize bestOf _ _ rest = o; cases o <;> rfl

theorem PrefixEntry.matchesNumber_iff (e : PrefixEntry) (number : List (Fin 12)) :
    e.matchesNumber number = true ↔ e.Matches (number.map Fin.val) := by
  unfold PrefixEntry.matchesNumber PrefixEntry.Matches
  rw [List.isPrefixOf_iff_prefix]
  exact (List.prefix_map_iff_of_injective Fin.val_injective).symm

section
variable {s : State} {number : List (Fin 12)}

theorem State.decidingEntry_of_decides {i : Fin 64} {e : PrefixEntry} (h : s.Decides i e (number.map Fin.val)) :
    decidingEntry number s.retained.prefixes.toList = some e := by
  obtain ⟨here, fits, top⟩ := h
  rw [decidingEntry_eq_bestOf]
  exact bestOf_table (fun e => e.matchesNumber_iff number) here fits top

theorem State.resolve_barred {i : Fin 64} {e : PrefixEntry} (h : s.Decides i e (number.map Fin.val))
    (barred : e.cls = .barred) : s.resolve number = .barred := by
  unfold State.resolve
  rw [State.decidingEntry_of_decides h]
  dsimp only
  rw [barred]

/-- The class that a number resolves to, as `resolve` tells it. -/
def Resolution.ofClass : Option ClassId → Resolution
  | some c => .tariff c
  | none => .noClass

theorem State.resolve_eq {cls : Option ClassId} (h : s.ResolvesTo (number.map Fin.val) cls) :
    s.resolve number = .ofClass cls := by
  unfold State.resolve
  rcases h with ⟨i, e, c, decides, tariff, rfl⟩ | ⟨none, rfl⟩
  · rw [State.decidingEntry_of_decides decides]
    dsimp only
    rw [tariff]
    rfl
  · rw [decidingEntry_eq_bestOf, bestOf_table_none (fun e => e.matchesNumber_iff number) none]
    cases s.ctl.setup.defaultClass <;> rfl

theorem State.hasBand_iff {c : ClassId} : s.hasBand c = true ↔ s.ClassHasBand c := by
  unfold State.hasBand State.ClassHasBand
  rw [List.any_eq_true]
  constructor
  · rintro ⟨o, mem, present⟩
    obtain ⟨j, small, same⟩ := List.getElem_of_mem mem
    rw [Vector.length_toList] at small
    exact ⟨⟨j, small⟩, by rw [← same] at present; simpa using present⟩
  · rintro ⟨b, present⟩
    exact ⟨_, Vector.mem_toList_iff.mpr (Vector.getElem_mem b.isLt), present⟩

theorem State.maskUsable_iff {mask : BitVec 8} : s.maskUsable mask = true ↔ s.MaskHasUsable mask := by
  have usable : ∀ st : LineState, st.usable = true ↔ st ≠ .disabled ∧ st ≠ .fault := fun st => by
    cases st <;> simp [LineState.usable]
  simp only [State.maskUsable, State.MaskHasUsable, List.any_eq_true, Bool.and_eq_true, usable, mem_allLines, true_and]
  rfl

end

end Sys2Proof.Machine
end

section
/-! PROOF. The two call requests: the checks of a PLACE_CALL (R14) and what they are tied to, PLACE_CALL and ACCEPT at the
take (R14, R16). -/

namespace Sys2Proof.Machine

/-! ## Digits -/

theorem mapAll_isSome {α β : Type} {f : α → Option β} (l : List α) :
    (mapAll f l).isSome = true ↔ ∀ a ∈ l, (f a).isSome = true := by
  induction l with
  | nil => simp [mapAll]
  | cons a rest ih =>
    rw [List.forall_mem_cons, ← ih, mapAll]
    cases f a <;> cases mapAll f rest <;> simp

theorem symbolOf_isSome (b : Byte) : (symbolOf b).isSome = true ↔ b.toNat < 14 := by
  unfold symbolOf
  split
  · rename_i k found
    rw [finOf_eq_some_iff] at found
    exact iff_of_true rfl (by omega)
  · rename_i none
    have big : ¬ b.toNat < 12 := fun small => by rw [finOf_eq (i := ⟨b.toNat, small⟩) rfl] at none; cases none
    split
    · rename_i same; subst same; decide
    · split
      · rename_i same; subst same; decide
      · rename_i twelve thirteen
        refine iff_of_false Bool.noConfusion fun small => ?_
        rcases (by omega : b.toNat = 12 ∨ b.toNat = 13) with k | k
        · exact twelve (BitVec.eq_of_toNat_eq k)
        · exact thirteen (BitVec.eq_of_toNat_eq k)

/-- P and W carry no digit (R116). -/
theorem symbolOf_code {b : Byte} {y : Symbol} (h : symbolOf b = some y) :
    y.code?.map Fin.val = if b.toNat < 12 then some b.toNat else none := by
  unfold symbolOf at h
  split at h
  · rename_i k found
    rw [finOf_eq_some_iff] at found
    cases h
    rw [if_pos (by omega), found]
    rfl
  · rename_i none
    have big : ¬ b.toNat < 12 := fun small => by rw [finOf_eq (i := ⟨b.toNat, small⟩) rfl] at none; cases none
    rw [if_neg big]
    split at h
    · cases h; rfl
    · split at h
      · cases h; rfl
      · cases h

theorem dialledNumber_of_bytes {l : List Byte} {ys : List Symbol} (h : mapAll symbolOf l = some ys) :
    (dialledNumber ys).map Fin.val = (l.map BitVec.toNat).filter fun k => decide (k < 12) := by
  induction l generalizing ys with
  | nil => cases h; rfl
  | cons b rest ih =>
    rw [mapAll] at h
    split at h
    · rename_i y zs first others
      cases h
      have code := symbolOf_code first
      unfold dialledNumber at ih ⊢
      rw [List.map_cons, List.filterMap_cons, List.filter_cons, ← ih others]
      cases digit : y.code? with
      | none =>
        rw [digit] at code
        split at code
        · cases code
        · rename_i big; rw [decide_eq_false big]; rfl
      | some k =>
        rw [digit] at code
        split at code
        · rename_i small
          rw [decide_eq_true small, if_pos rfl, ← Option.some.inj code]
          rfl
        · cases code
    · cases h

/-! ## The fields of a PLACE_CALL -/

section
variable {rec : PlaceCallRec}

theorem PlaceCallRec.symbols_isSome :
    rec.symbols.isSome = true ↔ (1 ≤ rec.digitCount.toNat ∧ rec.digitCount.toNat ≤ 24)
      ∧ ∀ b ∈ rec.digits.toList.take rec.digitCount.toNat, b.toNat < 14 := by
  unfold PlaceCallRec.symbols
  split
  · rename_i count
    simp only [mapAll_isSome, symbolOf_isSome, inRange_iff.mp count, and_self, true_and]
  · rename_i count
    exact iff_of_false Bool.noConfusion fun k => count (inRange_iff.mpr k.1)

theorem PlaceCallRec.number_eq (h : rec.symbols.isSome = true) :
    (dialledNumber (rec.symbols.getD [])).map Fin.val = rec.number := by
  obtain ⟨ys, found⟩ := Option.isSome_iff_exists.mp h
  rw [found]
  unfold PlaceCallRec.symbols at found
  split at found
  · exact dialledNumber_of_bytes found
  · cases found

theorem PlaceCallRec.namesNoPolicy_iff : rec.namesNoPolicy = true ↔ rec.policy.toNat = 255 := by
  unfold PlaceCallRec.namesNoPolicy
  rw [decide_eq_true_iff, ← BitVec.toNat_inj]
  rfl

theorem PlaceCallRec.inRanges_iff : rec.inRanges = true ↔ rec.FieldsInRange := by
  have timeout : rec.answerTimeout = 0 ↔ rec.answerTimeout.toNat = 0 := by rw [← BitVec.toNat_inj]; rfl
  have account : rec.accountId.isSome = true ↔ rec.account.toNat < 32 := finOf_isSome
  have policy : rec.policyIndex.isSome = true ↔ rec.policy.toNat < 8 := finOf_isSome
  unfold PlaceCallRec.inRanges PlaceCallRec.FieldsInRange
  simp only [Bool.and_eq_true, Bool.or_eq_true, decide_eq_true_eq, inRange_iff, account, policy, timeout,
    PlaceCallRec.namesNoPolicy_iff, PlaceCallRec.symbols_isSome]
  tauto

theorem State.namedPolicy_eq {s : State} {p : Policy} (h : s.NamesPolicy rec p) : s.namedPolicy rec = some p := by
  unfold State.namedPolicy
  rcases h with ⟨none, rfl⟩ | ⟨i, index, present⟩
  · exact if_pos (PlaceCallRec.namesNoPolicy_iff.mpr none)
  · rw [if_neg fun k => by have := PlaceCallRec.namesNoPolicy_iff.mp k; omega, PlaceCallRec.policyIndex, finOf_eq index]
    exact present

theorem State.namesPolicy_of {s : State} {p : Policy} (h : s.namedPolicy rec = some p) : s.NamesPolicy rec p := by
  unfold State.namedPolicy at h
  split at h
  · rename_i none
    cases h
    exact .inl ⟨PlaceCallRec.namesNoPolicy_iff.mp none, rfl⟩
  · split at h
    · rename_i i index
      exact .inr ⟨i, finOf_eq_some_iff.mp index, h⟩
    · cases h

/-! ## The checks in their order -/

variable {s : State}

theorem State.activeWithTag_isSome {tag : Half} : (s.activeWithTag tag).isSome = true ↔ ¬ s.TagUnused tag := by
  rw [← State.activeWithTag_none, ← Option.not_isSome_iff_eq_none, not_not]

theorem State.judgePlaceCall_bad (h : ¬ rec.FieldsInRange ∨ ∀ p, ¬ s.NamesPolicy rec p) :
    s.judgePlaceCall rec = { snapshot := Policy.single, tariff := none, failure := some .badRequest } := by
  unfold State.judgePlaceCall
  dsimp only
  split
  · rename_i inRanges
    have unnamed := h.resolve_left (not_not.mpr (PlaceCallRec.inRanges_iff.mp inRanges))
    cases named : s.namedPolicy rec with
    | none => rfl
    | some p => exact absurd (State.namesPolicy_of named) (unnamed p)
  · rfl

variable {p : Policy} (fields : rec.FieldsInRange) (named : s.NamesPolicy rec p)
include fields named

theorem State.judgePlaceCall_duplicate (used : ¬ s.TagUnused rec.tag) :
    s.judgePlaceCall rec = { snapshot := p, tariff := none, failure := some .duplicateTag } := by
  unfold State.judgePlaceCall
  dsimp only
  rw [if_pos (PlaceCallRec.inRanges_iff.mpr fields), State.namedPolicy_eq named]
  exact if_pos (State.activeWithTag_isSome.mpr used)

theorem State.judgePlaceCall_number (unused : s.TagUnused rec.tag) :
    s.judgePlaceCall rec = s.judgeNumber rec p := by
  unfold State.judgePlaceCall
  dsimp only
  rw [if_pos (PlaceCallRec.inRanges_iff.mpr fields), State.namedPolicy_eq named]
  exact if_neg fun k => State.activeWithTag_isSome.mp k unused

omit named in
theorem PlaceCallRec.number_of_fields : (dialledNumber (rec.symbols.getD [])).map Fin.val = rec.number := by
  obtain ⟨-, -, -, low, high, digits⟩ := fields
  exact PlaceCallRec.number_eq (PlaceCallRec.symbols_isSome.mpr ⟨⟨low, high⟩, digits⟩)

omit named in
theorem State.judgeNumber_barred (p : Policy) {i : Fin 64} {e : PrefixEntry} (decides : s.Decides i e rec.number)
    (barred : e.cls = .barred) :
    s.judgeNumber rec p = { snapshot := p, tariff := none, failure := some .barred } := by
  rw [← PlaceCallRec.number_of_fields fields] at decides
  unfold State.judgeNumber
  rw [State.resolve_barred decides barred]

omit named in
theorem State.judgeNumber_resolved (p : Policy) {cls : Option ClassId} (resolves : s.ResolvesTo rec.number cls) :
    s.judgeNumber rec p = match cls with
      | some c => { snapshot := p, tariff := some c, failure := s.judgeClass rec c }
      | none => { snapshot := p, tariff := none, failure := some .noTariff } := by
  rw [← PlaceCallRec.number_of_fields fields] at resolves
  unfold State.judgeNumber
  rw [State.resolve_eq resolves]
  cases cls <;> rfl

end

/-- Settles O39: each check that fails decides, when those before it pass. -/
theorem placeCallChecksInOrder : Obligations.PlaceCallChecksInOrder := by
  unfold Obligations.PlaceCallChecksInOrder
  intro s rec single mask
  refine ⟨State.judgePlaceCall_bad, fun p fields named => ⟨State.judgePlaceCall_duplicate fields named,
    fun unused => ?_, fun unused resolves => ?_, fun cls unused resolves => ?_⟩⟩
  · rintro ⟨i, e, decides, barred⟩
    rw [State.judgePlaceCall_number fields named unused, State.judgeNumber_barred fields p decides barred]
  · rw [State.judgePlaceCall_number fields named unused, State.judgeNumber_resolved fields p resolves]
  · rw [State.judgePlaceCall_number fields named unused, State.judgeNumber_resolved fields p resolves]
    have judged : s.judgeClass rec cls
        = if s.hasBand cls then if s.maskUsable mask then none else some .noLine else some .noTariff := rfl
    dsimp only
    rw [judged]
    refine ⟨fun none => ?_, fun band none => ?_, fun band usable => ?_⟩
    · rw [if_neg fun k => none (State.hasBand_iff.mp k)]
    · rw [if_pos (State.hasBand_iff.mpr band), if_neg fun k => none (State.maskUsable_iff.mp k)]
    · rw [if_pos (State.hasBand_iff.mpr band), if_pos (State.maskUsable_iff.mpr usable)]

end Sys2Proof.Machine
end

section
/-! PROOF. Contexts replaced and PROGRESS reports queued, written out; then PLACE_CALL and ACCEPT at the take (R14, R16). -/

namespace Sys2Proof.Machine

/-! ## Contexts replaced -/

theorem State.modCtx_eq_withCtx (s : State) (c : CtxId) (f : Context → Context) :
    s.modCtx c f = s.withCtx c (f (s.ctx c)) := rfl

@[simp] theorem State.withCtx_ctx_same (s : State) (c : CtxId) (x : Context) : (s.withCtx c x).ctx c = x :=
  s.modCtx_ctx_same c fun _ => x

theorem State.withCtx_ctx_other (s : State) {c d : CtxId} (x : Context) (h : d ≠ c) : (s.withCtx c x).ctx d = s.ctx d :=
  s.modCtx_ctx_other c d (fun _ => x) h

theorem State.withCtx_others (s : State) (c : CtxId) (x : Context) : s.OtherCtxs (s.withCtx c x) c :=
  fun _ h => s.withCtx_ctx_other x h

@[simp] theorem State.withCtx_line (s : State) (c : CtxId) (x : Context) (l : LineId) : (s.withCtx c x).line l = s.line l :=
  rfl

@[simp] theorem State.withCtx_meter (s : State) (c : CtxId) (x : Context) (l : LineId) :
    (s.withCtx c x).meter l = s.meter l := rfl

@[simp] theorem State.withCtx_withCtx (s : State) (c : CtxId) (x y : Context) :
    (s.withCtx c x).withCtx c y = s.withCtx c y := by
  unfold State.withCtx
  rw [Vector.set_set]

@[simp] theorem State.withCtx_modCtx (s : State) (c : CtxId) (x : Context) (f : Context → Context) :
    (s.withCtx c x).modCtx c f = s.withCtx c (f x) := by
  rw [State.modCtx_eq_withCtx, State.withCtx_ctx_same, State.withCtx_withCtx]

@[simp] theorem State.withCtx_self (s : State) (c : CtxId) : s.withCtx c (s.ctx c) = s := by
  unfold State.withCtx State.ctx
  rw [Fin.getElem_fin, Vector.set_getElem_self]

theorem State.withCtx_keeps (s : State) (c : CtxId) (x : Context) : s.Keeps (s.withCtx c x) := s.modCtx_keeps c fun _ => x

theorem State.withLine_keeps (s : State) (l : LineId) (x : Line) : s.Keeps (s.withLine l x) := s.modLine_keeps l fun _ => x

theorem State.withLine_otherLines (s : State) (l : LineId) (x : Line) : s.OtherLines (s.withLine l x) l :=
  fun k other => ⟨by rw [State.withLine_line, if_neg other], rfl⟩

/-! ## PROGRESS reports -/

/-- The context behind a PROGRESS report of its own: a dropped one is counted (R147). -/
def Context.reporting (x : Context) (asked room : Bool) : Context :=
  { x with drops := if asked && !room then min (x.drops + 1) 255 else x.drops }

/-- The report writer behind a PROGRESS report of context `c`: queued as far as it is asked for and there is room. -/
def State.withProgress (s : State) (asked : Bool) (c : CtxId) (l : LineId) (kind : ProgressKind) : ReportWriter :=
  if asked && s.progressRoom then s.report.append [s.progressEntry c l kind (s.ctx c).attempts] else s.report

theorem State.queueProgress_eq (s : State) (c : CtxId) (l : LineId) (kind : ProgressKind) :
    s.queueProgress c l kind
      = { s.withCtx c ((s.ctx c).reporting true s.progressRoom) with report := s.withProgress true c l kind } := by
  unfold State.queueProgress
  split
  · rename_i room
    have room' : s.progressRoom = true := decide_eq_true room
    have same : (s.ctx c).reporting true true = s.ctx c := rfl
    rw [State.withProgress, room', same, State.withCtx_self]
    rfl
  · rename_i full
    have full' : s.progressRoom = false := decide_eq_false full
    rw [State.withProgress, full']
    rfl

theorem State.queueProgressIfAsked_eq (s : State) (c : CtxId) (l : LineId) (kind : ProgressKind) :
    s.queueProgressIfAsked c l kind
      = { s.withCtx c ((s.ctx c).reporting (s.ctx c).progress s.progressRoom) with
          report := s.withProgress (s.ctx c).progress c l kind } := by
  unfold State.queueProgressIfAsked
  split
  · rename_i asked
    rw [State.queueProgress_eq, asked]
  · rename_i unasked
    have same : (s.ctx c).reporting false s.progressRoom = s.ctx c := rfl
    rw [Bool.eq_false_iff.mpr unasked, same, State.withCtx_self]
    rfl

/-! ## PLACE_CALL -/

theorem State.freeCtx_eq {s : State} {c : CtxId} (h : s.LowestFree c) : s.freeCtx = some c := by
  obtain ⟨free, lowest⟩ := h
  unfold State.freeCtx
  rw [List.find?_eq_some_iff_getElem]
  refine ⟨decide_eq_true free, c.val, by simp [allContexts], by simp [allContexts], fun j less => ?_⟩
  have busy := lowest ⟨j, by omega⟩ less
  simpa [allContexts] using busy

/-- The context of a PLACE_CALL as intake sets it is that of the statement. -/
theorem placeCallContext_eq (rec : PlaceCallRec) (r : OrderRing) (v : Verdict) :
    placeCallContext rec r v = rec.context r v.snapshot v.tariff := rfl

/-- A context ended where no list, line or account holds it: that of a refused call request (R11, R14, R16). -/
theorem State.endContext_of_unplaced {s : State} {c : CtxId} {x : Context} (place : x.state = .free)
    (unanswered : x.stamp = none) (o : CallOutcome) :
    (s.withCtx c x).endContext c o
      = { s.withCtx c (x.ended x.lastOutcome o) with
          report := s.report.append [{ body := .callEnd c, urgent := x.signalNow }] } := by
  unfold State.endContext State.leavePlace
  rw [State.withCtx_ctx_same, place]
  dsimp only
  rw [State.withCtx_modCtx, State.bookkeeping, State.withCtx_ctx_same,
    if_neg fun k => by rw [show ({ x with state := .ended, due := none, finalOutcome := some o } : Context).stamp = x.stamp
      from rfl, unanswered] at k; exact Bool.noConfusion k.2,
    State.withCtx_modCtx, State.withCtx_ctx_same]
  unfold Context.ended
  rw [place]
  rfl

section
variable {r : OrderRing} {c : CtxId} {s : State}

theorem exec_placeCall_of_ready (ready : s.ReadyToTake r .context) (rec : PlaceCallRec) :
    exec (.placeCall r .ok rec) s = .next (((s.atTake r rec.cells).actPlaceCall r rec).afterTake r) :=
  exec_take_of_ready rfl rfl rfl ready

theorem State.actPlaceCall_refused {u : State} {rec : PlaceCallRec} {o : CallOutcome} (free : u.LowestFree c)
    (failure : (u.judgePlaceCall rec).failure = some o) :
    u.actPlaceCall r rec = ((u.withCtx c (placeCallContext rec r (u.judgePlaceCall rec))).endContext c o) := by
  unfold State.actPlaceCall
  rw [State.freeCtx_eq free]
  dsimp only
  rw [failure]
  rfl

theorem State.actPlaceCall_passed {u : State} {rec : PlaceCallRec} (free : u.LowestFree c)
    (failure : (u.judgePlaceCall rec).failure = none) :
    u.actPlaceCall r rec = ((u.withCtx c (placeCallContext rec r (u.judgePlaceCall rec))).joinWaiting c r) := by
  unfold State.actPlaceCall
  rw [State.freeCtx_eq free]
  dsimp only
  rw [failure]
  rfl

/-! ## ACCEPT -/

theorem exec_accept_of_ready (ready : s.ReadyToTake r .context) (rec : AcceptRec) :
    exec (.accept r .ok rec) s = .next (((s.atTake r rec.cells).actAccept r rec).afterTake r) :=
  exec_take_of_ready rfl rfl rfl ready

theorem acceptContext_eq (rec : AcceptRec) (r : OrderRing) : acceptContext rec r = rec.context r := by
  unfold acceptContext AcceptRec.context
  have mask : maskOf rec.lineId = if rec.line.toNat < 8 then BitVec.ofNat 8 (2 ^ rec.line.toNat) else 0 := by
    unfold AcceptRec.lineId
    split
    · rename_i small; rw [finOf_eq (i := ⟨rec.line.toNat, small⟩) rfl]; rfl
    · rename_i big; rw [finOf_eq_none (Nat.not_lt.mp big)]; rfl
  rw [mask]
  rfl

theorem State.actAccept_refused {u : State} {rec : AcceptRec} {o : CallOutcome} (free : u.LowestFree c)
    (judged : u.judgeAccept rec = .error o) :
    u.actAccept r rec
      = { u.withCtx c ((rec.context r).ended none o) with
          report := u.report.append [{ body := .callEnd c, urgent := (rec.context r).signalNow }] } := by
  unfold State.actAccept
  rw [State.freeCtx_eq free]
  dsimp only
  rw [judged]
  dsimp only
  rw [State.modCtx_eq_withCtx, acceptContext_eq]
  exact State.endContext_of_unplaced rfl rfl o

/-- The context of an accepted ACCEPT (R97). -/
def Context.accepted (x : Context) (l : LineId) : Context :=
  { x with state := .onLine, currentLine := some l, lastLine := some l }

theorem State.actAccept_accepted {u : State} {rec : AcceptRec} {l : LineId} (free : u.LowestFree c)
    (judged : u.judgeAccept rec = .ok l) :
    u.actAccept r rec = (u.withCtx c ((rec.context r).accepted l)).answerLine l c := by
  unfold State.actAccept
  rw [State.freeCtx_eq free]
  dsimp only
  rw [judged]
  dsimp only
  rw [State.modCtx_eq_withCtx u, acceptContext_eq, State.withCtx_modCtx]
  rfl

theorem State.judgeAccept_outside {u : State} {rec : AcceptRec} (h : 8 ≤ rec.line.toNat) :
    u.judgeAccept rec = .error .badRequest := by
  unfold State.judgeAccept AcceptRec.lineId
  rw [finOf_eq_none h]

theorem State.judgeAccept_line {u : State} {rec : AcceptRec} {l : LineId} (h : rec.line.toNat = l.val) :
    u.judgeAccept rec
      = if (u.activeWithTag rec.tag).isSome then .error .duplicateTag
        else if (u.line l).state = .ringing then .ok l else .error .notRinging := by
  unfold State.judgeAccept AcceptRec.lineId
  rw [finOf_eq h]

end

/-- The line connected inbound (R99), written out. -/
theorem State.connectedInEntry_eq {s : State} {l : LineId} {c : CtxId} (held : (s.line l).held = some c) :
    s.connectedInEntry l
      = ((s.withLine l ((s.line l).connected .connectedIn (s.ctx c).maxDuration)).withCtx c
          { s.ctx c with stamp := some s.now }).queueProgressIfAsked c l .answered := by
  unfold State.connectedInEntry
  rw [held]
  rfl

/-- Context `c` on line `l` is connected inbound between `s` and `t` (R99). -/
structure State.ConnectsInbound (s t : State) (l : LineId) (c : CtxId) : Prop where
  line : t.line l = (s.line l).connected .connectedIn (s.ctx c).maxDuration
  otherLines : s.OtherLines t l
  meter : t.meter l = s.meter l
  ctx : t.ctx c = ({ s.ctx c with stamp := some s.now } : Context).reporting (s.ctx c).progress s.progressRoom
  others : s.OtherCtxs t c
  report : t.report = s.withProgress (s.ctx c).progress c l .answered
  lists : s.SameLists t
  retained : t.retained = s.retained
  keeps : s.Keeps t

theorem State.connectedInEntry_connects {s : State} {l : LineId} {c : CtxId} (held : (s.line l).held = some c) :
    s.ConnectsInbound (s.connectedInEntry l) l c := by
  have keeps := (s.withLine_keeps l ((s.line l).connected .connectedIn (s.ctx c).maxDuration)).trans
    ((State.withCtx_keeps _ c { s.ctx c with stamp := some s.now }).trans
      (State.queueProgressIfAsked_keeps _ c l .answered))
  rw [← State.connectedInEntry_eq held] at keeps
  have written := State.connectedInEntry_eq held
  rw [State.queueProgressIfAsked_eq, State.withCtx_ctx_same, State.withCtx_withCtx] at written
  rw [written] at keeps ⊢
  refine ⟨State.withLine_line_same _ _ _, State.withLine_otherLines _ _ _, rfl, State.withCtx_ctx_same _ _ _,
    State.withCtx_others (s.withLine l _) c _, ?_, ⟨rfl, rfl, rfl⟩, rfl, keeps⟩
  show State.withProgress _ _ c l .answered = _
  unfold State.withProgress State.progressEntry
  rw [State.withCtx_ctx_same]
  rfl

/-- Settles O40: the lowest-numbered FREE context, set from the record, ends or joins the waiting list. -/
theorem placeCallIsDecidedAtTheTake : Obligations.PlaceCallIsDecidedAtTheTake := by
  unfold Obligations.PlaceCallIsDecidedAtTheTake
  intro r rec c s ready free u v x
  have free' : u.LowestFree c := free
  rw [exec_placeCall_of_ready ready]
  refine ⟨fun o failure => ?_, fun passed => ?_⟩
  · rw [State.actPlaceCall_refused (u := s.atTake r rec.cells) free' failure,
      State.endContext_of_unplaced (s := s.atTake r rec.cells) rfl rfl]
    rfl
  · rw [State.actPlaceCall_passed (u := s.atTake r rec.cells) free' passed, State.joinWaiting, State.withCtx_modCtx]
    cases r <;> rfl

/-- Settles O41: the three checks of R16, then the line answers by its loop pattern. -/
theorem acceptAnswersARingingLine : Obligations.AcceptAnswersARingingLine := by
  unfold Obligations.AcceptAnswersARingingLine
  intro r rec c s ready free u x refused
  have free' : u.LowestFree c := free
  rw [exec_accept_of_ready ready]
  have refuses : ∀ o, u.judgeAccept rec = .error o →
      Host.Outcome.next (((s.atTake r rec.cells).actAccept r rec).afterTake r)
        = (.next (refused o) : Host.Outcome State Fault Refusal) := fun o judged => by
    rw [State.actAccept_refused (u := s.atTake r rec.cells) free' judged]
    rfl
  refine ⟨fun outside => refuses _ (State.judgeAccept_outside outside), fun inside used => refuses _ ?_,
    fun l line unused => ?_⟩
  · rw [State.judgeAccept_line (l := ⟨rec.line.toNat, inside⟩) rfl]
    exact if_pos (State.activeWithTag_isSome.mpr used)
  · have judged : u.judgeAccept rec = if (s.line l).state = .ringing then .ok l else .error .notRinging := by
      rw [State.judgeAccept_line line]
      exact if_neg fun k => State.activeWithTag_isSome.mp k unused
    intro ln y
    have accepts : (s.line l).state = .ringing →
        (s.atTake r rec.cells).actAccept r rec = (u.withCtx c y).answerLine l c := fun ringing => by
      rw [if_pos ringing] at judged
      exact State.actAccept_accepted (u := s.atTake r rec.cells) free' judged
    refine ⟨fun silent => refuses _ (judged.trans (if_neg silent)), fun ringing pattern => ?_, fun ringing pattern => ?_,
      fun ringing pattern => ?_⟩
    · rw [accepts ringing, State.answerLine]
      simp only [List.mem_cons, List.not_mem_nil, or_false] at pattern
      rcases pattern with h | h <;>
        rw [show ((u.withCtx c y).line l).loopPattern = _ from h, State.modLine_eq_withLine] <;> rfl
    · rw [accepts ringing, State.answerLine, show ((u.withCtx c y).line l).loopPattern = _ from pattern,
        State.modLine_eq_withLine]
      rfl
    · rw [accepts ringing, State.answerLine, show ((u.withCtx c y).line l).loopPattern = _ from pattern,
        State.modLine_eq_withLine]
      have connects := State.connectedInEntry_connects (s := (u.withCtx c y).withLine l ln) (l := l) (c := c)
        (by rw [State.withLine_line_same])
      obtain ⟨lineOf, otherLines, meter, ctx, others, report, lists, retained, keeps⟩ := connects
      have context : ((u.withCtx c y).withLine l ln).ctx c = y := State.withCtx_ctx_same _ _ _
      rw [context] at ctx report lineOf
      rw [State.withLine_line_same] at lineOf
      refine ⟨_, rfl, ?_, fun k other => ?_, meter, ctx, fun d other => ?_, lists, retained, ?_, ?_⟩
      · have unlimited : y.maxDuration = 0 ↔ rec.maxDuration = 0 := BitVec.toNat_inj (y := 0)
        have duration := if_congr unlimited (rfl : (none : Option Nat) = none) (rfl : some (y.maxDuration * 1000) = _)
        refine lineOf.trans ?_
        unfold Line.connected
        rw [duration]
        rfl
      · exact ⟨(otherLines k other).1.trans (by rw [State.withLine_line, if_neg other]; rfl), (otherLines k other).2⟩
      · exact (others d other).trans (State.withCtx_ctx_other u y other)
      · exact ((u.withCtx_keeps c y).trans (State.withLine_keeps _ l ln)).trans keeps
      · refine report.trans ?_
        unfold State.withProgress State.progressEntry
        rw [context, show ProgressKind.answered.isWarning = false from rfl, Bool.or_false]
        rfl

end Sys2Proof.Machine
end

section
/-! PROOF. Request records written to bytes and read back (R168, R169, R172). -/

namespace Sys2Proof.Machine

/-! ## Little-endian fields -/

theorem half_extract (h : Half) : half (h.extractLsb' 0 8) (h.extractLsb' 8 8) = h := by
  unfold half
  apply BitVec.eq_of_getLsbD_eq
  intro k small
  rw [BitVec.getLsbD_append]
  by_cases low : k < 8
  · simp [low]
  · have : k - 8 < 8 := by omega
    have : 8 + (k - 8) = k := by omega
    simp [*]

theorem word_extract (w : Word) :
    word (w.extractLsb' 0 8) (w.extractLsb' 8 8) (w.extractLsb' 16 8) (w.extractLsb' 24 8) = w := by
  unfold word
  apply BitVec.eq_of_getLsbD_eq
  intro k small
  simp only [BitVec.getLsbD_append, BitVec.getLsbD_extractLsb']
  by_cases one : k < 8
  · simp [one]
  · by_cases two : k - 8 < 8
    · have : 8 + (k - 8) = k := by omega
      simp [one, two, this]
    · by_cases three : k - 8 - 8 < 8
      · have : 16 + (k - 8 - 8) = k := by omega
        simp [one, two, three, this]
      · have : 24 + (k - 8 - 8 - 8) = k := by omega
        have : k - 8 - 8 - 8 < 8 := by omega
        simp [*]

/-! ## Bytes laid over others -/

theorem overlay_append (a b : List (Nat × Byte)) (under : Nat → Byte) (k : Nat) :
    overlay (a ++ b) under k = overlay a (overlay b under) k := by
  induction a with
  | nil => rfl
  | cons cell rest ih =>
    obtain ⟨off, byte⟩ := cell
    show (if off = k then byte else overlay (rest ++ b) under k) = if off = k then byte else overlay rest _ k
    rw [ih]

theorem cellsAt_append (off : Nat) (a b : List Byte) :
    cellsAt off (a ++ b) = cellsAt off a ++ cellsAt (off + a.length) b := by
  induction a generalizing off with
  | nil => rfl
  | cons byte rest ih =>
    show (off, byte) :: cellsAt (off + 1) (rest ++ b) = (off, byte) :: (cellsAt (off + 1) rest ++ _)
    rw [ih, List.length_cons, Nat.add_right_comm, Nat.add_assoc]

theorem overlay_cellsAt_outside {off k : Nat} {bytes : List Byte} (h : k < off ∨ off + bytes.length ≤ k)
    (under : Nat → Byte) : overlay (cellsAt off bytes) under k = under k := by
  induction bytes generalizing off with
  | nil => rfl
  | cons byte rest ih =>
    rw [List.length_cons] at h
    show (if off = k then byte else overlay (cellsAt (off + 1) rest) under k) = under k
    rw [if_neg (by omega), ih (by omega)]

theorem overlay_cellsAt {bytes : List Byte} {i : Nat} {b : Byte} (h : bytes[i]? = some b) (off : Nat)
    (under : Nat → Byte) : overlay (cellsAt off bytes) under (off + i) = b := by
  induction bytes generalizing off i with
  | nil => cases h
  | cons byte rest ih =>
    show (if off = off + i then byte else overlay (cellsAt (off + 1) rest) under (off + i)) = b
    cases i with
    | zero => exact (if_pos rfl).trans (Option.some.inj h)
    | succ i =>
      rw [if_neg (by omega), show off + (i + 1) = off + 1 + i by omega]
      exact ih h (off + 1)

/-- The field of a vector of bytes at the tail of a record. -/
theorem overlay_vector {n : Nat} (v : Vector Byte n) (off : Nat) (under : Nat → Byte) :
    (Vector.ofFn fun i : Fin n => overlay (cellsAt off v.toList) under (off + i.val)) = v := by
  refine Vector.ext fun i small => ?_
  rw [Vector.getElem_ofFn]
  refine overlay_cellsAt ?_ off under
  rw [List.getElem?_eq_getElem (by simpa using small), Vector.getElem_toList]

theorem getElem?_flatMap_halfBytes {l : List Half} {i : Nat} {h : Half} (at' : l[i]? = some h) :
    (l.flatMap halfBytes)[2 * i]? = some (h.extractLsb' 0 8)
      ∧ (l.flatMap halfBytes)[2 * i + 1]? = some (h.extractLsb' 8 8) := by
  induction l generalizing i with
  | nil => cases at'
  | cons first rest ih =>
    rw [List.flatMap_cons]
    cases i with
    | zero => cases at'; exact ⟨rfl, rfl⟩
    | succ i => exact ih at'

theorem overlay_halves {n : Nat} (v : Vector Half n) (off : Nat) (under : Nat → Byte) :
    (Vector.ofFn fun i : Fin n => halfAt (overlay (cellsAt off (v.toList.flatMap halfBytes)) under) (off + 2 * i.val))
      = v := by
  refine Vector.ext fun i small => ?_
  have at' : v.toList[i]? = some v[i] := by
    rw [List.getElem?_eq_getElem (by simpa using small), Vector.getElem_toList]
  obtain ⟨low, high⟩ := getElem?_flatMap_halfBytes at'
  rw [Vector.getElem_ofFn, halfAt, overlay_cellsAt low, Nat.add_assoc, overlay_cellsAt high, half_extract]

/-! ## The records -/

theorem overlay_headCells_past {k : Nat} (h : 4 ≤ k) (kind : Byte) (tag : Half) (under : Nat → Byte) :
    overlay (headCells kind tag) under k = under k := by
  unfold headCells
  rw [overlay_append, overlay_cellsAt_outside (.inr (by simp; omega)),
    overlay_cellsAt_outside (.inr (by simpa [halfBytes] using h))]

section
variable (r : OrderRing) (bus : TakeBus) (under : Nat → Byte)

theorem decodeRequest_placeCall (rec : PlaceCallRec) :
    decodeRequest r bus (overlay rec.cells under) = .placeCall r bus rec := by
  have digits : (Vector.ofFn fun i : Fin 24 => overlay rec.cells under (12 + i.val)) = rec.digits := by
    unfold PlaceCallRec.cells
    rw [cellsAt_append]
    refine Eq.trans (congrArg Vector.ofFn (funext fun i => ?_)) (overlay_vector rec.digits 12 under)
    rw [overlay_append]
    exact overlay_cellsAt_outside (.inr (by simp [halfBytes])) _
  have kind : overlay rec.cells under 0 = 0x01 := rfl
  have tag : halfAt (overlay rec.cells under) 2 = rec.tag := half_extract rec.tag
  have timeout : halfAt (overlay rec.cells under) 8 = rec.answerTimeout := half_extract rec.answerTimeout
  have duration : halfAt (overlay rec.cells under) 10 = rec.maxDuration := half_extract rec.maxDuration
  unfold decodeRequest
  simp only [kind, digits, tag, timeout, duration, reduceIte]
  rfl

theorem decodeRequest_accept (rec : AcceptRec) :
    decodeRequest r bus (overlay rec.cells under) = .accept r bus rec := by
  have kind : overlay rec.cells under 0 = 0x02 := rfl
  have tag : halfAt (overlay rec.cells under) 2 = rec.tag := half_extract rec.tag
  have duration : halfAt (overlay rec.cells under) 6 = rec.maxDuration := half_extract rec.maxDuration
  unfold decodeRequest
  simp only [kind, tag, duration, BitVec.reduceEq, reduceIte]
  rfl

theorem decodeRequest_cancel (rec : TargetRec) :
    decodeRequest r bus (overlay (rec.cells 0x03) under) = .cancel r bus rec := by
  have kind : overlay (rec.cells 0x03) under 0 = 0x03 := rfl
  have tag : halfAt (overlay (rec.cells 0x03) under) 2 = rec.tag := half_extract rec.tag
  have target : halfAt (overlay (rec.cells 0x03) under) 4 = rec.target := half_extract rec.target
  unfold decodeRequest
  simp only [kind, tag, target, BitVec.reduceEq, reduceIte]
  rfl

theorem decodeRequest_release (rec : TargetRec) :
    decodeRequest r bus (overlay (rec.cells 0x04) under) = .release r bus rec := by
  have kind : overlay (rec.cells 0x04) under 0 = 0x04 := rfl
  have tag : halfAt (overlay (rec.cells 0x04) under) 2 = rec.tag := half_extract rec.tag
  have target : halfAt (overlay (rec.cells 0x04) under) 4 = rec.target := half_extract rec.target
  unfold decodeRequest
  simp only [kind, tag, target, BitVec.reduceEq, reduceIte]
  rfl

theorem decodeRequest_setLine (rec : SetLineRec) :
    decodeRequest r bus (overlay rec.cells under) = .setLine r bus rec := by
  have kind : overlay rec.cells under 0 = 0x10 := rfl
  have tag : halfAt (overlay rec.cells under) 2 = rec.tag := half_extract rec.tag
  have seize : halfAt (overlay rec.cells under) 8 = rec.seizeTimeout := half_extract rec.seizeTimeout
  have answer : halfAt (overlay rec.cells under) 10 = rec.answerDefault := half_extract rec.answerDefault
  have tone : halfAt (overlay rec.cells under) 12 = rec.toneTime := half_extract rec.toneTime
  have gap : halfAt (overlay rec.cells under) 14 = rec.gapTime := half_extract rec.gapTime
  have guard : halfAt (overlay rec.cells under) 16 = rec.clearGuard := half_extract rec.clearGuard
  unfold decodeRequest
  simp only [kind, tag, seize, answer, tone, gap, guard, BitVec.reduceEq, reduceIte]
  rfl

theorem decodeRequest_loadPrefix (rec : LoadPrefixRec) :
    decodeRequest r bus (overlay rec.cells under) = .loadPrefix r bus rec := by
  have symbols : (Vector.ofFn fun i : Fin 12 => overlay rec.cells under (8 + i.val)) = rec.symbols := by
    unfold LoadPrefixRec.cells
    rw [cellsAt_append]
    refine Eq.trans (congrArg Vector.ofFn (funext fun i => ?_)) (overlay_vector rec.symbols 8 under)
    rw [overlay_append, overlay_headCells_past (by omega), overlay_append]
    exact overlay_cellsAt_outside (.inr (by simp)) _
  have kind : overlay rec.cells under 0 = 0x11 := rfl
  have tag : halfAt (overlay rec.cells under) 2 = rec.tag := half_extract rec.tag
  unfold decodeRequest
  simp only [kind, symbols, tag, BitVec.reduceEq, reduceIte]
  rfl

theorem decodeRequest_loadBand (rec : LoadBandRec) :
    decodeRequest r bus (overlay rec.cells under) = .loadBand r bus rec := by
  have kind : overlay rec.cells under 0 = 0x12 := rfl
  have tag : halfAt (overlay rec.cells under) 2 = rec.tag := half_extract rec.tag
  have start : wordAt (overlay rec.cells under) 8 = rec.start := word_extract rec.start
  have period : halfAt (overlay rec.cells under) 12 = rec.period := half_extract rec.period
  have unit : halfAt (overlay rec.cells under) 14 = rec.unitCharge := half_extract rec.unitCharge
  have setup : halfAt (overlay rec.cells under) 16 = rec.setupCharge := half_extract rec.setupCharge
  unfold decodeRequest
  simp only [kind, tag, start, period, unit, setup, BitVec.reduceEq, reduceIte]
  rfl

theorem decodeRequest_setPolicy (rec : SetPolicyRec) :
    decodeRequest r bus (overlay rec.cells under) = .setPolicy r bus rec := by
  have intervals : (Vector.ofFn fun i : Fin 6 => halfAt (overlay rec.cells under) (10 + 2 * i.val)) = rec.intervals := by
    have past : ∀ k, 10 ≤ k →
        overlay rec.cells under k = overlay (cellsAt 10 (rec.intervals.toList.flatMap halfBytes)) under k := by
      intro k far
      unfold SetPolicyRec.cells
      rw [overlay_append, overlay_append, overlay_headCells_past (by omega)]
      exact overlay_cellsAt_outside (.inr (by simp; omega)) _
    refine Eq.trans (congrArg Vector.ofFn (funext fun i => ?_)) (overlay_halves rec.intervals 10 under)
    rw [halfAt, past _ (by omega), past _ (by omega), halfAt]
  have kind : overlay rec.cells under 0 = 0x13 := rfl
  have tag : halfAt (overlay rec.cells under) 2 = rec.tag := half_extract rec.tag
  unfold decodeRequest
  simp only [kind, intervals, tag, BitVec.reduceEq, reduceIte]
  rfl

theorem decodeRequest_setClock (rec : SetClockRec) :
    decodeRequest r bus (overlay rec.cells under) = .setClock r bus rec := by
  have kind : overlay rec.cells under 0 = 0x15 := rfl
  have tag : halfAt (overlay rec.cells under) 2 = rec.tag := half_extract rec.tag
  have day : halfAt (overlay rec.cells under) 4 = rec.day := half_extract rec.day
  have second : wordAt (overlay rec.cells under) 8 = rec.second := word_extract rec.second
  unfold decodeRequest
  simp only [kind, tag, day, second, BitVec.reduceEq, reduceIte]

theorem decodeRequest_unknown {kind : Byte} (unknown : kind ∉ knownKinds) (tag : Half) :
    decodeRequest r bus (overlay (headCells kind tag) under) = .unknownRequestKind r bus kind tag := by
  have first : overlay (headCells kind tag) under 0 = kind := rfl
  have tag' : halfAt (overlay (headCells kind tag) under) 2 = tag := half_extract tag
  unfold decodeRequest
  simp only [knownKinds, List.mem_cons, List.not_mem_nil, or_false, not_or] at unknown
  simp only [first, tag', unknown, reduceIte]

/-! ## ACCOUNT records -/

theorem decodeRequest_account {rd : Nat → Byte} (kind : rd 0 = 0x14) :
    decodeRequest r bus rd
      = decodeAccount r bus
          { tag := halfAt rd 2, account := rd 4, op := rd 5, limitedFlag := rd 6, limit := wordAt rd 8 } := by
  unfold decodeRequest
  simp only [kind, BitVec.reduceEq, reduceIte]

/-- An ACCOUNT record that names an account, decided by its operation. -/
theorem decodeAccount_of_account {rec : AccountRec} {a : AccountId} (account : rec.account = BitVec.ofNat 8 a) :
    decodeAccount r bus rec
      = if rec.op = 1 then
          if rec.limitedFlag = 0 then .accountSetLimit r bus rec.tag a false rec.limit
          else if rec.limitedFlag = 1 then .accountSetLimit r bus rec.tag a true rec.limit
          else .accountInvalidOperation r bus rec
        else if rec.op = 2 then .accountClearTotal r bus rec.tag a
        else if rec.op = 3 then .accountSuspend r bus rec.tag a
        else if rec.op = 4 then .accountResume r bus rec.tag a
        else if rec.op = 5 then .accountRead r bus rec.tag a
        else .accountInvalidOperation r bus rec := by
  have value : rec.account.toNat = a.val := by rw [account]; simp; omega
  have same : (⟨rec.account.toNat, value ▸ a.isLt⟩ : AccountId) = a := Fin.ext value
  unfold decodeAccount
  rw [dif_pos (value ▸ a.isLt), same]

theorem decodeAccount_of_invalid {rec : AccountRec} (h : rec.isInvalid = true) :
    decodeAccount r bus rec = .accountInvalidOperation r bus rec := by
  unfold AccountRec.isInvalid at h
  simp only [Bool.or_eq_true, Bool.and_eq_true, decide_eq_true_eq] at h
  unfold decodeAccount
  split
  · rename_i small
    have op : ∀ k : Byte, rec.op = k → rec.op.toNat = k.toNat := fun k same => congrArg BitVec.toNat same
    split
    · rename_i one
      have value := op 1 one
      have flag : 1 < rec.limitedFlag.toNat := by
        simp only [BitVec.reduceToNat] at value
        omega
      rw [if_neg fun zero => by rw [zero] at flag; simp at flag, if_neg fun same => by rw [same] at flag; simp at flag]
    · rename_i notOne
      have other : rec.op.toNat < 1 ∨ 5 < rec.op.toNat := by
        rcases h with ((k | k) | k) | ⟨k, -⟩
        · omega
        · exact .inl k
        · exact .inr k
        · exact absurd (BitVec.eq_of_toNat_eq k) notOne
      have away : ∀ k : Byte, 1 ≤ k.toNat → k.toNat ≤ 5 → rec.op ≠ k := fun k low high same => by
        have := op k same
        omega
      rw [if_neg (away 2 (by decide) (by decide)), if_neg (away 3 (by decide) (by decide)),
        if_neg (away 4 (by decide) (by decide)), if_neg (away 5 (by decide) (by decide))]
  · rfl

theorem decodeRequest_accountRec (rec : AccountRec) :
    decodeRequest r bus (overlay rec.cells under) = decodeAccount r bus rec := by
  have tag : halfAt (overlay rec.cells under) 2 = rec.tag := half_extract rec.tag
  have limit : wordAt (overlay rec.cells under) 8 = rec.limit := word_extract rec.limit
  rw [decodeRequest_account r bus rfl, tag, limit]
  rfl

theorem decodeRequest_setLimit (tag : Half) (a : AccountId) (limited : Bool) (limit : Word) :
    decodeRequest r bus (overlay (setLimitCells tag a limited limit) under) = .accountSetLimit r bus tag a limited limit := by
  unfold setLimitCells
  rw [decodeRequest_accountRec, decodeAccount_of_account r bus rfl]
  cases limited <;> rfl

/-- An operation that leaves the limited flag and the limit unread (R169). -/
theorem decodeRequest_accountCells (op : Byte) (tag : Half) (a : AccountId) :
    decodeRequest r bus (overlay (accountCells op tag a) under)
      = decodeAccount r bus
          { tag := tag, account := BitVec.ofNat 8 a, op := op, limitedFlag := under 6, limit := wordAt under 8 } := by
  have tag' : halfAt (overlay (accountCells op tag a) under) 2 = tag := half_extract tag
  rw [decodeRequest_account r bus rfl, tag']
  rfl

end

/-- Settles O15: kind by kind; an ACCOUNT record is decided by its operation. -/
theorem requestRecordReadsBack : Obligations.RequestRecordReadsBack := by
  unfold Obligations.RequestRecordReadsBack
  intro i r bus cells under wf take
  cases i <;> cases take
  case placeCall rec => exact decodeRequest_placeCall r bus under rec
  case accept rec => exact decodeRequest_accept r bus under rec
  case cancel rec => exact decodeRequest_cancel r bus under rec
  case release rec => exact decodeRequest_release r bus under rec
  case setLine rec => exact decodeRequest_setLine r bus under rec
  case loadPrefix rec => exact decodeRequest_loadPrefix r bus under rec
  case loadBand rec => exact decodeRequest_loadBand r bus under rec
  case setPolicy rec => exact decodeRequest_setPolicy r bus under rec
  case setClock rec => exact decodeRequest_setClock r bus under rec
  case accountSetLimit tag a limited limit => exact decodeRequest_setLimit r bus under tag a limited limit
  case accountClearTotal tag a | accountSuspend tag a | accountResume tag a | accountRead tag a =>
    rw [decodeRequest_accountCells, decodeAccount_of_account r bus rfl]
    rfl
  case accountInvalidOperation rec =>
    rw [decodeRequest_accountRec]
    exact decodeAccount_of_invalid r bus wf
  case unknownRequestKind kind tag =>
    exact decodeRequest_unknown r bus under (by simpa [Instr.wellFormed] using wf) tag

end Sys2Proof.Machine
end

section
/-! PROOF. What every take leaves behind, records that are not taken, and the ways into HALTED. -/

namespace Sys2Proof.Machine

/-! ## The bytes a take writes -/

theorem mem_cellsAt {off : Nat} {bytes : List Byte} {cell : Nat × Byte} (h : cell ∈ cellsAt off bytes) :
    off ≤ cell.1 ∧ cell.1 < off + bytes.length := by
  induction bytes generalizing off with
  | nil => cases h
  | cons byte rest ih =>
    rw [List.length_cons]
    rcases List.mem_cons.mp h with rfl | later
    · exact ⟨le_refl _, Nat.lt_add_of_pos_right (Nat.succ_pos _)⟩
    · have := ih later
      omega

theorem length_flatMap_halfBytes (l : List Half) : (l.flatMap halfBytes).length = 2 * l.length := by
  induction l with
  | nil => rfl
  | cons h rest ih =>
    rw [List.flatMap_cons, List.length_append, ih, List.length_cons, show (halfBytes h).length = 2 from rfl]
    omega

/-- A request record lies in its slot of 64 bytes (R172). -/
theorem take_cells_lt {i : Instr} {r : OrderRing} {bus : TakeBus} {cells : List (Nat × Byte)}
    (take : i.take = some (r, bus, cells)) : ∀ cell ∈ cells, cell.1 < 64 := by
  intro cell mem
  have run : ∀ {off : Nat} {bytes : List Byte}, off + bytes.length ≤ 64 → cell ∈ cellsAt off bytes → cell.1 < 64 :=
    fun fits h => lt_of_lt_of_le (mem_cellsAt h).2 fits
  have head : ∀ {kind tag}, cell ∈ headCells kind tag → cell.1 < 64 := fun h => by
    rcases List.mem_append.mp h with k | k
    · exact run (by simp) k
    · exact run (by simp [halfBytes]) k
  cases i <;> cases take
  case placeCall => exact run (by simp [halfBytes]) mem
  case cancel | release => exact run (by simp [halfBytes]) mem
  case unknownRequestKind => exact head mem
  case accept =>
    rcases List.mem_append.mp mem with k | k
    · exact run (by simp [halfBytes]) k
    · exact run (by simp [halfBytes]) k
  case setLine | loadPrefix | loadBand =>
    rcases List.mem_append.mp mem with k | k
    · exact head k
    · exact run (by simp [halfBytes, wordBytes]) k
  case accountClearTotal | accountSuspend | accountResume | accountRead =>
    rcases List.mem_append.mp mem with k | k
    · exact head k
    · exact run (by simp) k
  case accountSetLimit | accountInvalidOperation | setClock =>
    rcases List.mem_append.mp mem with k | k
    · rcases List.mem_append.mp k with k | k
      · exact head k
      · exact run (by simp [halfBytes]) k
    · exact run (by simp [wordBytes]) k
  case setPolicy =>
    rcases List.mem_append.mp mem with k | k
    · rcases List.mem_append.mp k with k | k
      · exact head k
      · exact run (by simp) k
    · exact run (by rw [length_flatMap_halfBytes, Vector.length_toList]; omega) k

/-! ## An index in a ring header -/

theorem Memory.read_writeHalf {m : Memory} (h : Memory.wf m = true) (base : Word) {off : Nat} (small : off + 1 < 2 ^ 32)
    (i : Half) :
    halfAt (fun k => Memory.read (Memory.writeCells base (cellsAt off (halfBytes i)) m) (addrOf base k)) off = i := by
  have apart : addrOf base off ≠ addrOf base (off + 1) := fun same => by
    have := addrOf_inj base (by omega) small same
    omega
  show half (Memory.read ((m.write (addrOf base off) _).write (addrOf base (off + 1)) _) (addrOf base off))
    (Memory.read ((m.write (addrOf base off) _).write (addrOf base (off + 1)) _) (addrOf base (off + 1))) = i
  rw [Memory.read_write_other _ _ _ _ apart (Memory.write_wf _ _ h), Memory.read_write_same _ _ _ h,
    Memory.read_write_same _ _ _ (Memory.write_wf _ _ h), half_extract]

/-- The bytes of an index are the only ones that its write changes. -/
theorem Memory.read_writeHalf_other {m : Memory} (h : Memory.wf m = true) {base : Word} {off a : Nat}
    (first : a ≠ addrOf base off) (second : a ≠ addrOf base (off + 1)) (i : Half) :
    Memory.read (Memory.writeCells base (cellsAt off (halfBytes i)) m) a = Memory.read m a := by
  refine Memory.read_writeCells_other base _ a h fun cell mem => ?_
  simp only [halfBytes, cellsAt, List.mem_cons, List.not_mem_nil, or_false] at mem
  rcases mem with rfl | rfl
  · exact first.symm
  · exact second.symm

/-! ## What a take leaves -/

section
variable (s : State) (r : OrderRing) (cells : List (Nat × Byte))

theorem State.atTurn_ring_same : (s.atTurn r cells).ring r = s.ring r := by
  unfold State.atTurn
  dsimp only
  rw [State.setStreak_ring, State.setRing_ring_other _ _ _ _ (otherRing_ne r).symm, State.storeCells_ring]

theorem State.atTurn_ring_other :
    (s.atTurn r cells).ring (otherRing r)
      = (s.ring (otherRing r)).judged ((s.storeCells (s.ring r).headAddr cells).headNeed (otherRing r))
          (s.hasFree ((s.storeCells (s.ring r).headAddr cells).headNeed (otherRing r))) := by
  unfold State.atTurn
  dsimp only
  rw [State.setStreak_ring, State.setRing_ring_same]

theorem State.afterTake_ring_same : (s.afterTake r).ring r = (s.ring r).stepped := by cases r <;> rfl

theorem State.afterTake_ring_other : (s.afterTake r).ring (otherRing r) = s.ring (otherRing r) := by cases r <;> rfl

theorem State.afterTake_mem :
    (s.afterTake r).mem
      = Memory.writeCells (s.ring r).header (cellsAt 4 (halfBytes ((s.ring r).consumer + 1))) s.mem := by
  cases r <;> rfl

end

/-- A take whose turn it is, by the state in which its record is acted on. -/
theorem exec_take_of_turn {i : Instr} {r : OrderRing} {bus : TakeBus} {cells : List (Nat × Byte)} {s : State}
    (wf : i.wellFormed = true) (take : i.take = some (r, bus, cells)) (read : bus ≠ .readError)
    (running : s.ctl.engine = .running) (takeable : s.Takeable r (needOfKind (overlay cells (fun _ => 0) 0)))
    (turn : s.Takeable (otherRing r) ((s.storeCells (s.ring r).headAddr cells).headNeed (otherRing r)) →
      (r = .urgent ∧ s.intake.streak < 4) ∨ (r = .routine ∧ 4 ≤ s.intake.streak)) :
    exec i s = .next ((takenBy i (s.atTurn r cells)).finishTake r bus) := by
  rw [exec_of_take take wf, State.takeFrom_of_turn running takeable read turn]

/-- Settles O30: the meaning of a record keeps rings, memory and the clocks, so that the take alone moves them. -/
theorem takeStepsTheRing : Obligations.TakeStepsTheRing := by
  unfold Obligations.TakeStepsTheRing
  intro i r cells s wf take running takeable canonical m need both turn
  have acted := takenBy_keeps i (s.atTurn r cells)
  have rings : ∀ q, (takenBy i (s.atTurn r cells)).ring q = (s.atTurn r cells).ring q := fun q => State.ring_congr acted.intake q
  have mem : (takenBy i (s.atTurn r cells)).mem = m.mem := acted.mem.trans (by cases r <;> rfl)
  have streak : (takenBy i (s.atTurn r cells)).intake.streak
      = streakAfter r ((s.ring (otherRing r)).hasRecord && s.hasFree need) s.intake.streak := by
    rw [acted.intake]
    rfl
  have bothIff : both ↔ ((s.ring (otherRing r)).hasRecord && s.hasFree need) = true := s.takeable_iff _ _
  have wfCells : Memory.wf m.mem = true := Memory.writeCells_wf _ _ canonical
  refine ⟨(takenBy i (s.atTurn r cells)).afterTake r, ?_, ?_, ?_, fun k => ?_, fun k second => ?_, fun k single => ?_, ?_,
    fun a slot low high => ?_, ?_⟩
  · rw [exec_take_of_turn wf take TakeBus.noConfusion running takeable turn, State.finishTake_ok]
  · rw [State.afterTake_ring_same, rings, State.atTurn_ring_same]
  · rw [State.afterTake_ring_other, rings, State.atTurn_ring_other]
    rfl
  · subst k
    exact streak
  · subst k
    rw [bothIff.mp second] at streak
    exact streak
  · subst k
    rw [Bool.eq_false_iff.mpr fun k => single (bothIff.mpr k)] at streak
    exact streak
  · have stored := State.afterTake_mem (takenBy i (s.atTurn r cells)) r
    rw [rings, State.atTurn_ring_same, mem] at stored
    unfold State.readConsumer State.readAt
    rw [stored]
    exact Memory.read_writeHalf wfCells _ (by omega) _
  · rw [State.afterTake_mem, rings, State.atTurn_ring_same, mem, Memory.read_writeHalf_other wfCells low high]
    exact Memory.read_writeCells_other _ _ a canonical fun cell inside => (slot cell.1 (take_cells_lt take cell inside)).symm
  · obtain ⟨ctl, power, intake, uptime, uptimeMs, mem, seed, pending⟩ := acted
    cases r <;> exact ⟨ctl, power, uptime, uptimeMs, seed, pending⟩

/-! ## Records that are not taken -/

theorem Ring.judged_of_empty {x : Ring} (active : x.state = .active) (last : x.consumer = x.cachedProducer) (need : Need)
    (isFree : Bool) : x.judged need isFree = { x with state := .empty } := if_pos ⟨active, last⟩

theorem Ring.judged_of_short {x : Ring} (active : x.state = .active) (ahead : x.consumer ≠ x.cachedProducer) (need : Need) :
    x.judged need false = { x with state := .held need } :=
  (if_neg fun k => ahead k.2).trans (if_pos ⟨active, rfl⟩)

/-- Settles O31: outside RUNNING nothing happens, else the heads are considered alone. -/
theorem recordNotTaken : Obligations.RecordNotTaken := by
  unfold Obligations.RecordNotTaken
  intro i r bus cells s wf take x need m other
  have run := exec_of_take take wf s
  rw [run]
  have noRecord : s.ctl.engine = .running → x.hasRecord = false →
      s.takeFrom r bus need cells (takenBy i) = s.setRing r (x.judged need (s.hasFree need)) := fun running none => by
    rw [State.takeFrom_of_no_record running none, State.considerRing_eq]
  refine ⟨fun stopped => ?_, fun idle => ?_, fun running active last => ?_, fun running record read short => ?_⟩
  · rw [State.takeFrom_of_not_running stopped]
  · by_cases running : s.ctl.engine = .running
    · have none : x.hasRecord = false := by simp [Ring.hasRecord, idle]
      refine congrArg Host.Outcome.next ((noRecord running none).trans ?_)
      rw [Ring.judged_of_not_active idle]
      exact s.setRing_self r
    · rw [State.takeFrom_of_not_running running]
  · have none : x.hasRecord = false := by simp [Ring.hasRecord, last]
    refine congrArg Host.Outcome.next ((noRecord running none).trans ?_)
    rw [Ring.judged_of_empty active last]
  · obtain ⟨active, ahead⟩ := (Ring.hasRecord_iff _).mp record
    have considered : s.atChoice r need cells
        = (m.setRing r { x with state := .held need }).setRing (otherRing r)
            ((s.ring (otherRing r)).judged other (s.hasFree other)) := by
      rw [State.atChoice, State.considerHeads_eq, State.storeCells_ring, State.storeCells_ring, State.storeCells_hasFree,
        State.storeCells_hasFree, short, Ring.judged_of_short active ahead]
      rfl
    refine congrArg Host.Outcome.next ((State.takeFrom_of_not_chosen running record read (fun n chosen => ?_) _).trans considered)
    have still := State.choose_some chosen
    rw [considered, State.setRing_ring_other _ _ _ _ (otherRing_ne r).symm, State.setRing_ring_same] at still
    simp [Ring.hasRecord] at still

end Sys2Proof.Machine
end

section
/-! PROOF. The post of the outbox's head (R148), and the ways into HALTED (R166). -/

namespace Sys2Proof.Machine

/-! ## The post -/

theorem State.takePost_of_empty {s : State} (h : s.report.outbox = []) (bus : PostBus) : s.takePost bus = s := by
  unfold State.takePost
  rw [h]

theorem State.takePost_of_not_mayPost {s : State} (h : s.mayPost = false) (bus : PostBus) : s.takePost bus = s := by
  unfold State.takePost
  split
  · rfl
  · rw [h]; rfl

theorem State.takePost_of_mayPost {s : State} {e : OutboxEntry} {rest : List OutboxEntry}
    (head : s.report.outbox = e :: rest) (h : s.mayPost = true) (bus : PostBus) : s.takePost bus = s.postEntry e rest bus := by
  unfold State.takePost
  rw [head]
  exact if_pos h

theorem State.mayPost_eq_false {s : State} (h : s.ctl.engine ∈ [.checking, .halted] ∨ s.report.adopted = false
    ∨ (s.report.producer - s.report.cachedConsumer).toNat = s.report.size) : s.mayPost = false := by
  unfold State.mayPost ReportWriter.isFull
  rcases h with engine | adopted | full
  · simp only [List.mem_cons, List.not_mem_nil, or_false] at engine
    rcases engine with k | k <;> rw [k] <;> rfl
  · rw [adopted, Bool.and_false, Bool.false_and]
  · rw [decide_eq_true full, Bool.not_true, Bool.and_false]

/-- What a posted entry frees (R148 step 4): an ENDED context with its place, a done slot. -/
def State.freedBy (s : State) : EntryBody → Option Need
  | .callEnd c => if (s.ctx c).state = .ended then some .context else none
  | .done _ => some .doneSlot
  | .progress _ | .unsolicited _ => none

theorem State.releaseRings_ring (s : State) (need : Need) (r : OrderRing) :
    (s.releaseRings need).ring r = (s.ring r).released need := by cases r <;> rfl

/-- The state behind a post, its entry freed, before the post is counted. -/
structure State.Freed (s t : State) (b : EntryBody) : Prop where
  ctx : ∀ c : CtxId, t.ctx c = if b = .callEnd c ∧ (s.ctx c).state = .ended then Context.cleared else s.ctx c
  ring : ∀ r : OrderRing, t.ring r = match s.freedBy b with
    | some need => (s.ring r).released need
    | none => s.ring r
  streak : t.intake.streak = s.intake.streak
  report : t.report = { s.report with
    missed := if OutboxEntry.isUnsolicited { body := b, urgent := false } then 0 else s.report.missed }
  rest : t = { s with ctxs := t.ctxs, intake := t.intake, report := t.report }

theorem State.freeEntry_freed (s : State) (b : EntryBody) : s.Freed (s.freeEntry b) b := by
  cases b with
  | callEnd c =>
    unfold State.freeEntry
    dsimp only
    by_cases ended : (s.ctx c).state = .ended
    · rw [if_pos ended]
      refine ⟨fun d => ?_, fun r => ?_, rfl, rfl, rfl⟩
      · have written : ((s.modCtx c fun _ => Context.cleared).releaseRings .context).ctx d
            = (s.modCtx c fun _ => Context.cleared).ctx d := rfl
        rw [written, State.modCtx_ctx]
        by_cases same : d = c
        · subst same; rw [if_pos rfl, if_pos ⟨rfl, ended⟩]
        · rw [if_neg same, if_neg fun k => same (EntryBody.callEnd.inj k.1).symm]
      · rw [State.freedBy, if_pos ended, State.releaseRings_ring]
        cases r <;> rfl
    · rw [if_neg ended]
      refine ⟨fun d => (if_neg ?_).symm, fun r => ?_, rfl, rfl, rfl⟩
      · rintro ⟨same, k⟩
        obtain rfl := EntryBody.callEnd.inj same
        exact ended k
      · rw [State.freedBy, if_neg ended]
  | done d => exact ⟨fun c => (if_neg fun k => EntryBody.noConfusion k.1).symm, fun r => s.releaseRings_ring _ r, rfl, rfl, rfl⟩
  | progress p => exact ⟨fun c => (if_neg fun k => EntryBody.noConfusion k.1).symm, fun r => rfl, rfl, rfl, rfl⟩
  | unsolicited u => exact ⟨fun c => (if_neg fun k => EntryBody.noConfusion k.1).symm, fun r => rfl, rfl, rfl, rfl⟩

/-- The state in which a posted entry is freed: record and index written, the entry gone (R148 steps 1 to 3). -/
def State.withPosted (s : State) (e : OutboxEntry) (rest : List OutboxEntry) : State :=
  { s with
    mem := Memory.writeCells s.report.header (cellsAt 0 (halfBytes (s.report.producer + 1)))
      (Memory.writeCells s.report.slot (cellsAt 0 (s.entryBytes e)) s.mem)
    report := { s.report with producer := s.report.producer + 1, outbox := rest } }

theorem exec_reportPost_ok {s : State} {e : OutboxEntry} {rest : List OutboxEntry} (head : s.report.outbox = e :: rest)
    (h : s.mayPost = true) :
    exec (.reportPost .ok) s
      = .next (((s.withPosted e rest).freeEntry e.body).modReport fun w => w.countPost e.urgent).judgeDrain.judgeAbort :=
  congrArg Host.Outcome.next (State.takePost_of_mayPost head h .ok)

/-- Settles O56: the post writes, then frees what its entry held. -/
theorem postFreesTheEntry : Obligations.PostFreesTheEntry := by
  unfold Obligations.PostFreesTheEntry
  refine ⟨fun bus s idle => ?_, fun e rest s head may => ?_⟩
  · refine congrArg Host.Outcome.next (idle.elim (fun empty => State.takePost_of_empty empty bus) fun stopped => ?_)
    exact State.takePost_of_not_mayPost (State.mayPost_eq_false stopped) bus
  intro written released freed
  refine ⟨?_, ?_⟩
  · obtain ⟨ctx, ring, streak, report, restOf⟩ := (s.withPosted e rest).freeEntry_freed e.body
    refine ⟨_, exec_reportPost_ok head may, ?_, ctx, fun r => ?_, streak, ?_, ?_⟩
    · show ((s.withPosted e rest).freeEntry e.body).mem = _
      rw [restOf]
      rfl
    · refine (ring r).trans ?_
      obtain ⟨body, urgent⟩ := e
      cases body <;> rfl
    · show ((s.withPosted e rest).freeEntry e.body).report.countPost e.urgent = _
      rw [report]
      rfl
    · show ({ (s.withPosted e rest).freeEntry e.body with report := _ } : State) = _
      rw [restOf]
      rfl
  · refine ⟨_, ?_, State.halt_entersHalted _ _⟩
    exact congrArg Host.Outcome.next (State.takePost_of_mayPost head may .indexError)

/-! ## The same record without a bus error -/

/-- The command that reads a take's record with another outcome on the bus: the same take, acted on alike. -/
theorem decodeRequest_take {i : Instr} {r : OrderRing} {bus : TakeBus} {cells : List (Nat × Byte)}
    (take : i.take = some (r, bus, cells)) (wf : i.wellFormed = true) (bus' : TakeBus) (under : Nat → Byte) :
    (decodeRequest r bus' (overlay cells under)).take = some (r, bus', cells)
      ∧ (decodeRequest r bus' (overlay cells under)).wellFormed = true
      ∧ takenBy (decodeRequest r bus' (overlay cells under)) = takenBy i := by
  have reads : ∀ j : Instr, j.wellFormed = true → j.take = some (r, bus', cells) → takenBy j = takenBy i →
      (decodeRequest r bus' (overlay cells under)).take = some (r, bus', cells)
        ∧ (decodeRequest r bus' (overlay cells under)).wellFormed = true
        ∧ takenBy (decodeRequest r bus' (overlay cells under)) = takenBy i := by
    intro j wfj takej same
    rw [requestRecordReadsBack j r bus' cells under wfj takej]
    exact ⟨takej, wfj, same⟩
  cases i <;> cases take
  case placeCall rec => exact reads (.placeCall r bus' rec) rfl rfl rfl
  case accept rec => exact reads (.accept r bus' rec) rfl rfl rfl
  case cancel rec => exact reads (.cancel r bus' rec) rfl rfl rfl
  case release rec => exact reads (.release r bus' rec) rfl rfl rfl
  case setLine rec => exact reads (.setLine r bus' rec) rfl rfl rfl
  case loadPrefix rec => exact reads (.loadPrefix r bus' rec) rfl rfl rfl
  case loadBand rec => exact reads (.loadBand r bus' rec) rfl rfl rfl
  case setPolicy rec => exact reads (.setPolicy r bus' rec) rfl rfl rfl
  case setClock rec => exact reads (.setClock r bus' rec) rfl rfl rfl
  case accountSetLimit tag a limited limit => exact reads (.accountSetLimit r bus' tag a limited limit) rfl rfl rfl
  case accountClearTotal tag a => exact reads (.accountClearTotal r bus' tag a) rfl rfl rfl
  case accountSuspend tag a => exact reads (.accountSuspend r bus' tag a) rfl rfl rfl
  case accountResume tag a => exact reads (.accountResume r bus' tag a) rfl rfl rfl
  case accountRead tag a => exact reads (.accountRead r bus' tag a) rfl rfl rfl
  case accountInvalidOperation rec => exact reads (.accountInvalidOperation r bus' rec) wf rfl rfl
  case unknownRequestKind kind tag => exact reads (.unknownRequestKind r bus' kind tag) wf rfl rfl

/-- A write error of the consumer index, told by the take without one (R32, log 23). -/
theorem State.finishTake_writeError (u : State) (r : OrderRing) :
    u.finishTake r .writeError
      = ({ (u.afterTake r).setRing r { u.ring r with consumer := (u.ring r).consumer + 1 } with mem := u.mem } : State).halt
          .memoryFault := by
  unfold State.finishTake State.afterTake
  dsimp only
  rw [if_pos rfl]
  cases r <;> rfl

/-- A take command is one take, well formed or not. -/
theorem exec_of_take_any {i : Instr} {r : OrderRing} {bus : TakeBus} {cells : List (Nat × Byte)}
    (take : i.take = some (r, bus, cells)) (s : State) :
    ∃ need, exec i s = .next (s.takeFrom r bus need cells (takenBy i)) := by
  cases i <;> cases take <;> exact ⟨_, rfl⟩

/-! ## START -/

theorem State.startInReady_of_unread {s : State} (aligned : s.ctl.setupAddr.toNat % 64 = 0) (first : OrderRing) :
    s.startInReady first .setupBlock = s.halt .memoryFault := by
  unfold State.startInReady
  rw [if_pos (aligned64_iff.mpr aligned)]
  exact if_pos rfl

section
variable {s : State} (stores : HostStores) (first : OrderRing)

theorem exec_start_of_aligned (active : s.inReset = false) (ready : s.ctl.engine = .ready) (bus : StartBus) :
    exec (.start stores first bus) s = .next ((s.withStores stores).startInReady first bus) := by
  rw [exec_start_of_not_inReset active, State.takeStart_of_ready (s := s.withStores stores) ready]

theorem exec_start_of_valid (active : s.inReset = false) (ready : s.ctl.engine = .ready)
    (aligned : s.ctl.setupAddr.toNat % 64 = 0) {p : Setup}
    (valid : setupOf ((s.withStores stores).readAt s.ctl.setupAddr) = some p) {bus : StartBus} (reads : bus ≠ .setupBlock) :
    exec (.start stores first bus) s = .next ((s.withStores stores).startAccepted p first bus) := by
  rw [exec_start_of_aligned stores first active ready,
    State.startInReady_of_some (s := s.withStores stores) aligned first reads valid]

end

/-- An order ring as it stands when the header of ring `r` cannot be read (log 28). -/
def State.unreadRing (s : State) (p : Setup) (first r : OrderRing) (faulted : OrderRing → Bool) (k : OrderRing) : Ring :=
  if k = r then { s.ring k with base := p.base k, size := p.size k, header := p.header k }
  else if k = first then
    { base := p.base k, size := p.size k, header := p.header k, cachedProducer := s.readProducer (p.header k)
      consumer := s.readConsumer (p.header k)
      state := if faulted k then .faulted
        else if s.readProducer (p.header k) = s.readConsumer (p.header k) then .empty else .active }
  else s.ring k

/-- What START has done when the header of order ring `r` cannot be read (R25, R160). -/
def State.unread (s : State) (p : Setup) (first r : OrderRing) (faulted : OrderRing → Bool) : State :=
  { s with
    ctl := { s.ctl with urgentFault := faulted .urgent, routineFault := faulted .routine }
    intake :=
      { urgent := s.unreadRing p first r faulted .urgent, routine := s.unreadRing p first r faulted .routine
        streak := s.intake.streak }
    report := { (s.withIndices p).report with adopted := true }.withUnsolicited s.now
      (startReports (.started s.ctl.cause s.ctl.status s.retained.calendar.valid) first faulted) }

theorem State.placeRing_first_eq (s : State) (p : Setup) (first : OrderRing) :
    ((s.withIndices p).started).placeRing p first = s.unread p first first fun _ => false := by
  cases first <;> rfl

theorem State.adopts_placeRing_eq (s : State) (p : Setup) (first : OrderRing) :
    (((s.withIndices p).started).adopts p first).placeRing p (otherRing first)
      = s.unread p first (otherRing first) fun k => decide (k = first) && s.malformed p first := by
  have bad : ((s.withIndices p).started).malformed p first = s.malformed p first := State.malformed_congr rfl p first
  have handed : ∀ kinds, ((s.withIndices p).started).report.withUnsolicited ((s.withIndices p).started).now kinds
      = { (s.withIndices p).report with adopted := true }.withUnsolicited s.now
          ([UnsolicitedKind.started s.ctl.cause s.ctl.status s.retained.calendar.valid] ++ kinds) := fun kinds =>
    ReportWriter.withUnsolicited_append _ _ _ _
  unfold State.adopts State.adoptedRing
  rw [bad, handed]
  cases malformed : s.malformed p first <;> cases first <;> rfl

/-- The read of an order ring's header fails at START (R25, R166). -/
theorem State.adoptOrderRings_unread (s : State) (p : Setup) (first r : OrderRing) {faulted : OrderRing → Bool}
    (h : ∀ k, faulted k = (decide (k = first) && (decide (r ≠ first) && s.malformed p first))) :
    State.adoptOrderRings p (.orderHeader r) [first, otherRing first] (s.withIndices p).started
      = (s.unread p first r faulted).halt .memoryFault := by
  rw [show faulted = fun k => decide (k = first) && (decide (r ≠ first) && s.malformed p first) from funext h]
  by_cases same : r = first
  · subst same
    rw [State.adoptOrderRings_first, State.placeRing_first_eq]
    simp
  · obtain rfl : r = otherRing first := by cases r <;> cases first <;> simp_all [otherRing]
    rw [State.adoptOrderRings_second, State.adopts_placeRing_eq]
    simp [same]

/-- Settles O29: each failed access halts the state in which it is made. -/
theorem busErrorHaltsThePart : Obligations.BusErrorHaltsThePart := by
  unfold Obligations.BusErrorHaltsThePart
  refine ⟨fun stores r s active running sound => ?_, fun stores s active engine adopted => ?_,
    fun stores first s active ready aligned => ?_, fun i r cells s => ?_, fun e rest landed s head may => ?_⟩
  · refine ⟨_, ?_, State.halt_entersHalted _ _⟩
    rw [exec_orderRingPost_of_not_inReset active, State.takeOrderPost, if_pos ⟨running, sound⟩]
    rfl
  · refine ⟨_, ?_, State.halt_entersHalted _ _⟩
    rw [exec_reportPostBit_of_not_inReset active,
      State.takeReportBit_of_acts (s := s.withStores stores) true ⟨engine, adopted⟩]
    rfl
  · intro m
    refine ⟨⟨_, ?_, State.halt_entersHalted _ _⟩, fun p valid => ?_⟩
    · rw [exec_start_of_aligned stores first active ready, State.startInReady_of_unread (s := s.withStores stores) aligned]
    intro u producer consumer indices tooFar
    have run : ∀ bus ≠ .setupBlock, exec (.start stores first bus) s = .next (m.startAccepted p first bus) := fun bus reads =>
      exec_start_of_valid stores first active ready aligned valid reads
    refine ⟨⟨_, ?_, State.halt_entersHalted _ _⟩, fun far bus mem => ⟨_, ?_, State.halt_entersHalted _ _⟩, fun near r => ?_⟩
    · rw [run _ StartBus.noConfusion, State.startAccepted_eq, if_pos rfl]
    · have reads : bus ≠ .setupBlock ∧ bus ≠ .reportHeader := by
        simp only [List.mem_cons, List.not_mem_nil, or_false] at mem
        rcases mem with rfl | rfl | rfl <;> exact ⟨StartBus.noConfusion, StartBus.noConfusion⟩
      rw [run _ reads.1, State.startAccepted_eq, if_neg reads.2]
      exact congrArg Host.Outcome.next (if_pos far)
    · intro faulted ring
      have bad : ∀ k, faulted k = (decide (k = first) && (decide (r ≠ first) && u.malformed p first)) := fun k => by
        by_cases same : k = first
        · subst same
          exact (Bool.decide_and _ _).trans (congrArg _ (Bool.decide_and _ _))
        · simp [faulted, same]
      refine ⟨(u.unread p first r faulted).halt .memoryFault, ?_, State.halt_entersHalted _ _⟩
      rw [run _ StartBus.noConfusion, State.startAccepted_eq, if_neg StartBus.noConfusion, if_neg near,
        State.adoptOrderRings_unread u p first r bad]
  · intro m
    refine ⟨fun take running record => ⟨_, ?_, State.halt_entersHalted _ _⟩, fun take wf running takeable turn => ?_⟩
    · obtain ⟨need, run⟩ := exec_of_take_any take s
      rw [run, State.takeFrom_of_readError running record]
      rfl
    · obtain ⟨take', wf', same⟩ := decodeRequest_take take wf .ok fun _ => 0
      have acted := takenBy_keeps i (s.atTurn r cells)
      have ring : (takenBy i (s.atTurn r cells)).ring r = s.ring r :=
        (State.ring_congr acted.intake r).trans (s.atTurn_ring_same r cells)
      have mem : (takenBy i (s.atTurn r cells)).mem = m.mem := acted.mem.trans (by cases r <;> rfl)
      refine ⟨_, _, exec_take_of_turn wf take TakeBus.noConfusion running takeable turn,
        exec_take_of_turn wf' take' TakeBus.noConfusion running takeable turn, ?_⟩
      rw [same, State.finishTake_ok, State.finishTake_writeError, ring, mem]
      exact State.halt_entersHalted _ _
  · intro part slot
    refine ⟨_, ?_, State.halt_entersHalted _ _⟩
    exact congrArg Host.Outcome.next (State.takePost_of_mayPost head may (.recordError landed))

end Sys2Proof.Machine
end

section
/-! PROOF. The meaning of a record does not read the order rings: it commutes with the replacement of intake. So a take with
the other ring in another state is the same take (R31). -/

namespace Sys2Proof.Machine

/-- Intake replaced. -/
def State.withIntake (s : State) (k : Intake) : State := { s with intake := k }

section
variable (s : State) (k : Intake)

/-! ## What does not see intake -/

@[simp] theorem State.withIntake_ctx (c : CtxId) : (s.withIntake k).ctx c = s.ctx c := (rfl)
@[simp] theorem State.withIntake_line (l : LineId) : (s.withIntake k).line l = s.line l := (rfl)
@[simp] theorem State.withIntake_meter (l : LineId) : (s.withIntake k).meter l = s.meter l := (rfl)
@[simp] theorem State.withIntake_account (a : AccountId) : (s.withIntake k).account a = s.account a := (rfl)
@[simp] theorem State.withIntake_ctl : (s.withIntake k).ctl = s.ctl := (rfl)
@[simp] theorem State.withIntake_waiting : (s.withIntake k).waiting = s.waiting := (rfl)
@[simp] theorem State.withIntake_freeLines : (s.withIntake k).freeLines = s.freeLines := (rfl)
@[simp] theorem State.withIntake_schedule : (s.withIntake k).schedule = s.schedule := (rfl)
@[simp] theorem State.withIntake_uptime : (s.withIntake k).uptime = s.uptime := (rfl)
@[simp] theorem State.withIntake_retained : (s.withIntake k).retained = s.retained := (rfl)
@[simp] theorem State.withIntake_report : (s.withIntake k).report = s.report := (rfl)
@[simp] theorem State.withIntake_now : (s.withIntake k).now = s.now := (rfl)
@[simp] theorem State.withIntake_priceNow (cls : Option ClassId) : (s.withIntake k).priceNow cls = s.priceNow cls := (rfl)
@[simp] theorem State.withIntake_windingDown : (s.withIntake k).windingDown = s.windingDown := (rfl)
@[simp] theorem State.withIntake_firstPair : (s.withIntake k).firstPair = s.firstPair := (rfl)
@[simp] theorem State.withIntake_admissionRefusal (c : CtxId) :
    (s.withIntake k).admissionRefusal c = s.admissionRefusal c := (rfl)
@[simp] theorem State.withIntake_maskUsable (mask : BitVec 8) : (s.withIntake k).maskUsable mask = s.maskUsable mask := (rfl)
@[simp] theorem State.withIntake_freeCtx : (s.withIntake k).freeCtx = s.freeCtx := (rfl)
@[simp] theorem State.withIntake_activeWithTag (tag : Half) :
    (s.withIntake k).activeWithTag tag = s.activeWithTag tag := (rfl)
@[simp] theorem State.withIntake_missStatus (tag : Half) : (s.withIntake k).missStatus tag = s.missStatus tag := (rfl)
@[simp] theorem State.withIntake_isConnected (c : CtxId) : (s.withIntake k).isConnected c = s.isConnected c := (rfl)
@[simp] theorem State.withIntake_judgePlaceCall (rec : PlaceCallRec) :
    (s.withIntake k).judgePlaceCall rec = s.judgePlaceCall rec := (rfl)
@[simp] theorem State.withIntake_judgeAccept (rec : AcceptRec) :
    (s.withIntake k).judgeAccept rec = s.judgeAccept rec := (rfl)

/-! ## The pieces of state -/

@[simp] theorem State.withIntake_modCtx (c : CtxId) (f : Context → Context) :
    (s.withIntake k).modCtx c f = (s.modCtx c f).withIntake k := rfl
@[simp] theorem State.withIntake_modLine (l : LineId) (f : Line → Line) :
    (s.withIntake k).modLine l f = (s.modLine l f).withIntake k := rfl
@[simp] theorem State.withIntake_setMeter (l : LineId) (e : Option MeterEntry) :
    (s.withIntake k).setMeter l e = (s.setMeter l e).withIntake k := rfl
@[simp] theorem State.withIntake_modRetained (f : Retained → Retained) :
    (s.withIntake k).modRetained f = (s.modRetained f).withIntake k := rfl
@[simp] theorem State.withIntake_modAccount (a : AccountId) (f : Account → Account) :
    (s.withIntake k).modAccount a f = (s.modAccount a f).withIntake k := rfl
@[simp] theorem State.withIntake_modReport (f : ReportWriter → ReportWriter) :
    (s.withIntake k).modReport f = (s.modReport f).withIntake k := rfl
@[simp] theorem State.withIntake_setWaiting (w : Waiting) :
    (s.withIntake k).setWaiting w = (s.setWaiting w).withIntake k := rfl
@[simp] theorem State.withIntake_setSchedule (q : List CtxId) :
    (s.withIntake k).setSchedule q = (s.setSchedule q).withIntake k := rfl
@[simp] theorem State.withIntake_unschedule (c : CtxId) :
    (s.withIntake k).unschedule c = (s.unschedule c).withIntake k := rfl
@[simp] theorem State.withIntake_joinFree (l : LineId) : (s.withIntake k).joinFree l = (s.joinFree l).withIntake k := rfl
@[simp] theorem State.withIntake_leaveFree (l : LineId) : (s.withIntake k).leaveFree l = (s.leaveFree l).withIntake k := rfl
@[simp] theorem State.withIntake_queue (b : EntryBody) (u : Bool) :
    (s.withIntake k).queue b u = (s.queue b u).withIntake k := rfl
@[simp] theorem State.withIntake_queueDone (tag : Half) (kind : Byte) (status : DoneStatus)
    (data : Option (AccountId × Account)) (u : Bool) :
    (s.withIntake k).queueDone tag kind status data u = (s.queueDone tag kind status data u).withIntake k := rfl
@[simp] theorem State.withIntake_detach (c : CtxId) (o : CallOutcome) :
    (s.withIntake k).detach c o = (s.detach c o).withIntake k := rfl

@[simp] theorem State.ite_withIntake (p : Prop) [Decidable p] (t u : State) :
    (if p then t.withIntake k else u.withIntake k) = (if p then t else u).withIntake k :=
  (apply_ite (fun v => State.withIntake v k) p t u).symm

/-! ## Reports -/

@[simp] theorem State.withIntake_queueProgress (c : CtxId) (l : LineId) (kind : ProgressKind) :
    (s.withIntake k).queueProgress c l kind = (s.queueProgress c l kind).withIntake k := by
  unfold State.queueProgress
  simp

@[simp] theorem State.withIntake_queueProgressIfAsked (c : CtxId) (l : LineId) (kind : ProgressKind) :
    (s.withIntake k).queueProgressIfAsked c l kind = (s.queueProgressIfAsked c l kind).withIntake k := by
  unfold State.queueProgressIfAsked
  simp

@[simp] theorem State.withIntake_queueUnsolicited (kind : UnsolicitedKind) :
    (s.withIntake k).queueUnsolicited kind = (s.queueUnsolicited kind).withIntake k := by
  unfold State.queueUnsolicited
  simp

/-! ## Ends -/

@[simp] theorem State.withIntake_clearLine (l : LineId) : (s.withIntake k).clearLine l = (s.clearLine l).withIntake k := by
  unfold State.clearLine
  simp

@[simp] theorem State.withIntake_leavePlace (c : CtxId) (o : CallOutcome) :
    (s.withIntake k).leavePlace c o = (s.leavePlace c o).withIntake k := by
  unfold State.leavePlace
  simp only [State.withIntake_ctx]
  cases (s.ctx c).state with
  | onLine => cases (s.ctx c).currentLine <;> simp
  | free | pending | retryWait | ended => simp

@[simp] theorem State.withIntake_bookkeeping (c : CtxId) :
    (s.withIntake k).bookkeeping c = (s.bookkeeping c).withIntake k := by
  unfold State.bookkeeping
  simp only [State.withIntake_ctx]
  cases (s.ctx c).account <;> simp

@[simp] theorem State.withIntake_endContext (c : CtxId) (o : CallOutcome) :
    (s.withIntake k).endContext c o = (s.endContext c o).withIntake k := by
  unfold State.endContext
  simp

@[simp] theorem State.withIntake_enterRetryWait (c : CtxId) (l : LineId) (o : CallOutcome) :
    (s.withIntake k).enterRetryWait c l o = (s.enterRetryWait c l o).withIntake k := by
  unfold State.enterRetryWait
  simp only [State.withIntake_ctx, State.withIntake_uptime, State.withIntake_modCtx, State.withIntake_schedule,
    State.withIntake_setSchedule, State.withIntake_queueProgressIfAsked]
  rfl

@[simp] theorem State.withIntake_judgeFailure (c : CtxId) (l : LineId) (o : CallOutcome) :
    (s.withIntake k).judgeFailure c l o = (s.judgeFailure c l o).withIntake k := by
  unfold State.judgeFailure
  simp

@[simp] theorem State.withIntake_endOnLine (l : LineId) (o : CallOutcome) :
    (s.withIntake k).endOnLine l o = (s.endOnLine l o).withIntake k := by
  unfold State.endOnLine
  simp only [State.withIntake_line]
  cases (s.line l).held <;> simp

@[simp] theorem State.withIntake_faultLine (l : LineId) : (s.withIntake k).faultLine l = (s.faultLine l).withIntake k := by
  unfold State.faultLine
  simp only [State.withIntake_line]
  cases (s.line l).held <;> simp

/-! ## The meter and the answer -/

theorem State.withIntake_charge (a : AccountId) (c : CtxId) (n : Nat) :
    (s.withIntake k).charge a c n = (s.charge a c n).map fun t => t.withIntake k := by
  unfold State.charge
  simp only [State.withIntake_account]
  cases (s.account a).allows n <;> rfl

@[simp] theorem State.withIntake_judgeWarning (l : LineId) (e : MeterEntry) :
    (s.withIntake k).judgeWarning l e = (s.judgeWarning l e).withIntake k := by
  unfold State.judgeWarning
  simp

@[simp] theorem State.withIntake_startUnit (l : LineId) (e : MeterEntry) (at' : Nat) (price : UnitPrice) :
    (s.withIntake k).startUnit l e at' price = (s.startUnit l e at' price).withIntake k := by
  unfold State.startUnit
  simp

@[simp] theorem State.withIntake_meterAnswer (l : LineId) (c : CtxId) :
    (s.withIntake k).meterAnswer l c = (s.meterAnswer l c).withIntake k := by
  unfold State.meterAnswer
  simp only [State.withIntake_ctx, State.withIntake_priceNow, State.withIntake_line, State.withIntake_setMeter,
    State.withIntake_modAccount, State.withIntake_charge]
  cases (s.ctx c).account with
  | none => rfl
  | some a =>
    dsimp only
    generalize State.charge _ a c _ = first
    cases first with
    | none => exact State.withIntake_endOnLine _ _ _ _
    | some s2 =>
      simp only [Option.map_some, State.withIntake_charge]
      generalize State.charge s2 a c _ = second
      cases second with
      | none => exact State.withIntake_endOnLine _ _ _ _
      | some s3 => exact State.withIntake_startUnit _ _ _ _ _ _

@[simp] theorem State.withIntake_answer (l : LineId) : (s.withIntake k).answer l = (s.answer l).withIntake k := by
  unfold State.answer
  simp only [State.withIntake_line]
  cases (s.line l).held <;> simp

@[simp] theorem State.withIntake_connectedInEntry (l : LineId) :
    (s.withIntake k).connectedInEntry l = (s.connectedInEntry l).withIntake k := by
  unfold State.connectedInEntry
  simp only [State.withIntake_line]
  cases (s.line l).held <;> simp

@[simp] theorem State.withIntake_awaitAnswerEntry (l : LineId) (c : CtxId) :
    (s.withIntake k).awaitAnswerEntry l c = (s.awaitAnswerEntry l c).withIntake k := by
  unfold State.awaitAnswerEntry
  simp

@[simp] theorem State.withIntake_beginSymbol (l : LineId) (c : CtxId) (pos : Nat) :
    (s.withIntake k).beginSymbol l c pos = (s.beginSymbol l c pos).withIntake k := by
  unfold State.beginSymbol
  simp only [State.withIntake_ctx, State.withIntake_modLine, State.withIntake_awaitAnswerEntry]
  rcases (s.ctx c).symbolAt pos with _ | symbol
  · rfl
  · cases symbol <;> rfl

@[simp] theorem State.withIntake_enterDialing (l : LineId) (c : CtxId) :
    (s.withIntake k).enterDialing l c = (s.enterDialing l c).withIntake k := by
  unfold State.enterDialing
  simp

@[simp] theorem State.withIntake_loopWaitEnd (l : LineId) (c : CtxId) :
    (s.withIntake k).loopWaitEnd l c = (s.loopWaitEnd l c).withIntake k := by
  unfold State.loopWaitEnd
  simp

/-! ## The allocator -/

@[simp] theorem State.withIntake_grant (c : CtxId) (l : LineId) :
    (s.withIntake k).grant c l = (s.grant c l).withIntake k := by
  unfold State.grant
  simp

theorem State.withIntake_seizeEntry (l : LineId) (c : CtxId) :
    (s.withIntake k).seizeEntry l c = ((s.seizeEntry l c).1.withIntake k, (s.seizeEntry l c).2) := by
  unfold State.seizeEntry
  simp only [State.withIntake_line, State.withIntake_loopWaitEnd, State.withIntake_faultLine]
  cases (s.line l).loopPattern <;> rfl

theorem State.withIntake_passLoop (n : Nat) (s : State) :
    State.passLoop n (s.withIntake k) = ((State.passLoop n s).1.withIntake k, (State.passLoop n s).2) := by
  induction n generalizing s with
  | zero => rfl
  | succ n ih =>
    unfold State.passLoop
    simp only [State.withIntake_firstPair, State.withIntake_admissionRefusal, State.withIntake_endContext,
      State.withIntake_grant, State.withIntake_seizeEntry, ih]
    rcases s.firstPair with _ | ⟨c, l⟩
    · rfl
    · dsimp only
      cases s.admissionRefusal c <;> rfl

@[simp] theorem State.withIntake_sweepOne (c : CtxId) : (s.withIntake k).sweepOne c = (s.sweepOne c).withIntake k := by
  unfold State.sweepOne
  simp

@[simp] theorem State.withIntake_sweep : (s.withIntake k).sweep = s.sweep.withIntake k := by
  have run : ∀ (cs : List CtxId) (u : State), cs.foldl State.sweepOne (u.withIntake k)
      = (cs.foldl State.sweepOne u).withIntake k := by
    intro cs
    induction cs with
    | nil => exact fun u => rfl
    | cons c cs ih => intro u; rw [List.foldl_cons, List.foldl_cons, State.withIntake_sweepOne, ih]
  exact run _ s

@[simp] theorem State.withIntake_pass : (s.withIntake k).pass = s.pass.withIntake k := by
  unfold State.pass
  simp only [State.withIntake_ctl, State.withIntake_waiting, State.withIntake_passLoop]
  rcases State.passLoop s.waiting.all.length s with ⟨u, lost⟩
  cases lost with
  | false => simp
  | true => simp [State.withIntake_passLoop]

@[simp] theorem State.withIntake_faultAndSweep (l : LineId) :
    (s.withIntake k).faultAndSweep l = (s.faultAndSweep l).withIntake k := by
  unfold State.faultAndSweep
  simp

/-! ## The records -/

theorem State.withIntake_actPlaceCall (r : OrderRing) (rec : PlaceCallRec) :
    (s.withIntake k).actPlaceCall r rec = (s.actPlaceCall r rec).withIntake k := by
  unfold State.actPlaceCall State.joinWaiting
  simp only [State.withIntake_freeCtx, State.withIntake_judgePlaceCall]
  cases s.freeCtx with
  | none => rfl
  | some c => dsimp only; cases (s.judgePlaceCall rec).failure <;> simp

theorem State.withIntake_actAccept (r : OrderRing) (rec : AcceptRec) :
    (s.withIntake k).actAccept r rec = (s.actAccept r rec).withIntake k := by
  unfold State.actAccept State.answerLine
  simp only [State.withIntake_freeCtx, State.withIntake_judgeAccept]
  cases s.freeCtx with
  | none => rfl
  | some c =>
    dsimp only
    cases s.judgeAccept rec with
    | error o => simp
    | ok l =>
      simp only [State.withIntake_modCtx, State.withIntake_line, State.withIntake_modLine]
      generalize State.line _ l = ln
      cases ln.loopPattern <;> simp

theorem State.withIntake_actCancel (rec : TargetRec) : (s.withIntake k).actCancel rec = (s.actCancel rec).withIntake k := by
  unfold State.actCancel
  simp only [State.withIntake_activeWithTag]
  cases s.activeWithTag rec.target <;> simp

theorem State.withIntake_actRelease (rec : TargetRec) :
    (s.withIntake k).actRelease rec = (s.actRelease rec).withIntake k := by
  unfold State.actRelease
  simp only [State.withIntake_activeWithTag]
  cases s.activeWithTag rec.target <;> simp

theorem State.withIntake_actSetLine (rec : SetLineRec) :
    (s.withIntake k).actSetLine rec = (s.actSetLine rec).withIntake k := by
  unfold State.actSetLine
  simp only [State.withIntake_line]
  rcases rec.settings with _ | ⟨l, enable, params⟩
  · simp
  · dsimp only
    cases enableEffect (s.line l).state enable <;> simp

theorem State.withIntake_answerConfig (tag : Half) (kind : Byte) (change : Option (Retained → Retained)) :
    (s.withIntake k).answerConfig tag kind change = (s.answerConfig tag kind change).withIntake k := by
  unfold State.answerConfig
  cases change <;> rfl

/-- The meaning of a record does not depend on intake, which it leaves alone. -/
theorem takenBy_withIntake (i : Instr) : takenBy i (s.withIntake k) = (takenBy i s).withIntake k := by
  unfold takenBy
  cases i
  case placeCall r bus rec => exact s.withIntake_actPlaceCall k r rec
  case accept r bus rec => exact s.withIntake_actAccept k r rec
  case cancel r bus rec => exact s.withIntake_actCancel k rec
  case release r bus rec => exact s.withIntake_actRelease k rec
  case setLine r bus rec => exact s.withIntake_actSetLine k rec
  case loadPrefix | loadBand | setPolicy | setClock => exact s.withIntake_answerConfig k _ _ _
  all_goals rfl

end

/-! ## The choice between the rings -/

/-- A take in which both heads are considered alike is the same take, with the other ring in another state. -/
theorem State.takeFrom_congr {s : State} {r : OrderRing} {need : Need} {cells : List (Nat × Byte)} {y : Ring}
    (considered : (s.setRing (otherRing r) y).atChoice r need cells = s.atChoice r need cells) (bus : TakeBus)
    (running : s.ctl.engine = .running) (record : (s.ring r).hasRecord = true) (read : bus ≠ .readError)
    (act : State → State) :
    (s.setRing (otherRing r) y).takeFrom r bus need cells act = s.takeFrom r bus need cells act := by
  have running' : (s.setRing (otherRing r) y).ctl.engine = .running := by cases r <;> exact running
  have record' : ((s.setRing (otherRing r) y).ring r).hasRecord = true := by
    rw [State.setRing_ring_other _ _ _ _ (otherRing_ne r).symm]; exact record
  by_cases chosen : ∃ n, (s.atChoice r need cells).choose = some (r, n)
  · obtain ⟨n, chosen⟩ := chosen
    rw [State.takeFrom_of_chosen running record read chosen,
      State.takeFrom_of_chosen running' record' read (by rw [considered]; exact chosen), considered]
  · have other : ∀ n, (s.atChoice r need cells).choose ≠ some (r, n) := fun n k => chosen ⟨n, k⟩
    rw [State.takeFrom_of_not_chosen running record read other,
      State.takeFrom_of_not_chosen running' record' read (by rw [considered]; exact other), considered]

/-- The other ring already judged: the heads are considered to the same end (R28, R29, R31). -/
theorem State.atChoice_judged {s : State} {r : OrderRing} {need : Need} (takeable : s.Takeable r need)
    (cells : List (Nat × Byte)) {st : RingState} (idle : st ≠ .active)
    (judged : (s.ring (otherRing r)).judged ((s.storeCells (s.ring r).headAddr cells).headNeed (otherRing r))
        (s.hasFree ((s.storeCells (s.ring r).headAddr cells).headNeed (otherRing r)))
      = { s.ring (otherRing r) with state := st }) :
    (s.setRing (otherRing r) { s.ring (otherRing r) with state := st }).atChoice r need cells = s.atChoice r need cells := by
  have same : ((s.setRing (otherRing r) { s.ring (otherRing r) with state := st }).ring r) = s.ring r :=
    State.setRing_ring_other _ _ _ _ (otherRing_ne r).symm
  have takeable' : (s.setRing (otherRing r) { s.ring (otherRing r) with state := st }).Takeable r need := by
    obtain ⟨active, ahead, free⟩ := takeable
    exact ⟨by rw [same]; exact active, by rw [same]; exact ahead, by rw [State.setRing_hasFree]; exact free⟩
  rw [State.atChoice_of_takeable takeable, State.atChoice_of_takeable takeable', judged, same, State.setRing_ring_same,
    Ring.judged_of_not_active idle]
  cases r <;> rfl

/-- Steps 3 and 4 of a take leave the other ring and the streak counter to intake as it stands. -/
theorem State.withIntake_afterTake (v : State) (k : Intake) {r : OrderRing} (h : (v.withIntake k).ring r = v.ring r) :
    (v.withIntake k).afterTake r
      = ((v.afterTake r).setRing (otherRing r) ((v.withIntake k).ring (otherRing r))).setStreak k.streak := by
  unfold State.afterTake
  rw [h]
  cases r <;> rfl

/-- Settles O32: with one takeable head the other ring is judged before the take, with two the streak counter chooses. -/
theorem arbiterChoosesARing : Obligations.ArbiterChoosesARing := by
  unfold Obligations.ArbiterChoosesARing
  intro i r cells s wf take m y need running takeable active
  have record : (s.ring r).hasRecord = true := (Ring.hasRecord_iff _).mpr ⟨takeable.1, takeable.2.1⟩
  have alike : ∀ {st : RingState}, st ≠ .active → y.judged need (s.hasFree need) = { y with state := st } →
      exec i s = exec i (s.setRing (otherRing r) { y with state := st }) := fun idle judged => by
    rw [exec_of_take take wf, exec_of_take take wf, State.takeFrom_congr
      (State.atChoice_judged takeable cells idle judged) .ok running record TakeBus.noConfusion]
  refine ⟨fun last => alike RingState.noConfusion (Ring.judged_of_empty active last _ _),
    fun ahead short => alike RingState.noConfusion ?_, fun ahead free => ⟨fun turn => ?_, fun turn => ?_⟩⟩
  · rw [short]
    exact Ring.judged_of_short active ahead need
  · have stays : y.judged need (s.hasFree need) = y := by rw [free]; exact Ring.judged_of_takeable ahead need
    let held := s.setRing (otherRing r) { y with state := .held need }
    have ready : held.ReadyToTake r (needOfKind (overlay cells (fun _ => 0) 0)) := by
      have same : held.ring r = s.ring r := State.setRing_ring_other _ _ _ _ (otherRing_ne r).symm
      refine ⟨by cases r <;> exact running, by rw [same]; exact record, ?_, ?_⟩
      · rw [State.setRing_hasFree]; exact takeable.2.2
      · rw [State.setRing_ring_same]; exact RingState.noConfusion
    have counted : (y.hasRecord && s.hasFree need) = true := (s.takeable_iff _ _).mp ⟨active, ahead, free⟩
    have atTurn : s.atTurn r cells = (held.atTake r cells).withIntake (s.atTurn r cells).intake := by cases r <;> rfl
    have acted := takenBy_keeps i (held.atTake r cells)
    refine ⟨_, _, exec_take_of_turn wf take TakeBus.noConfusion running takeable fun _ => turn,
      exec_take_of_ready take wf rfl ready, ?_⟩
    have ring : ((takenBy i (held.atTake r cells)).withIntake (s.atTurn r cells).intake).ring r
        = (takenBy i (held.atTake r cells)).ring r := by
      rw [State.ring_congr acted.intake r]
      refine (State.ring_congr (s := s.atTurn r cells) rfl r).trans ((s.atTurn_ring_same r cells).trans ?_)
      cases r <;> rfl
    rw [State.finishTake_ok, atTurn, takenBy_withIntake, State.withIntake_afterTake _ _ ring]
    have other : ((takenBy i (held.atTake r cells)).withIntake (s.atTurn r cells).intake).ring (otherRing r) = y :=
      (State.ring_congr (s := s.atTurn r cells) rfl _).trans ((s.atTurn_ring_other r cells).trans stays)
    have streak : (s.atTurn r cells).intake.streak = if r = .urgent then s.intake.streak + 1 else 0 := by
      have written : (s.atTurn r cells).intake.streak = streakAfter r (y.hasRecord && s.hasFree need) s.intake.streak := rfl
      rw [written, counted]
      cases r <;> rfl
    rw [other, streak]
  · have stays : y.judged need (s.hasFree need) = y := by rw [free]; exact Ring.judged_of_takeable ahead need
    have considered : s.atChoice r (needOfKind (overlay cells (fun _ => 0) 0)) cells = m := by
      rw [State.atChoice_of_takeable takeable]
      refine (congrArg (State.setRing _ (otherRing r)) stays).trans ?_
      exact State.setRing_self (s.storeCells (s.ring r).headAddr cells) (otherRing r)
    have ring : ∀ q, m.ring q = s.ring q := fun q => State.storeCells_ring s _ _ q
    obtain ⟨n, chosen⟩ := State.choose_ne (s := m) (r := r) (by rw [ring]; exact record)
      (by rw [ring]; exact (Ring.hasRecord_iff _).mpr ⟨active, ahead⟩) turn
    rw [exec_of_take take wf, State.takeFrom_of_not_chosen running record TakeBus.noConfusion fun k other => ?_, considered]
    rw [considered, chosen] at other
    exact otherRing_ne r (Prod.ext_iff.mp (Option.some.inj other)).1

end Sys2Proof.Machine
end

section
/-! PROOF. What happens at a line (R56, R73 to R75, R105 to R108): the ending step of a line in the terms of the statements,
and the timers that end an attempt or a call. -/

namespace Sys2Proof.Machine

/-! ## The happenings of a line -/

theorem State.linesRun_iff {s : State} : s.linesRun = true ↔ s.LinesRun := by
  simp [State.linesRun, State.LinesRun]

/-- A happening at a line while the lines run: it acts, and the drain condition is judged behind it (R161). -/
theorem State.LinesRun.atLine {s : State} (run : s.LinesRun) (happening : State → State) :
    s.atLine happening = (happening s).judgeDrain := if_pos (State.linesRun_iff.mpr run)

theorem State.LinesRun.exec_of {s t : State} {happening : State → State} (run : s.LinesRun) (acts : happening s = t) :
    (.next (s.atLine happening) : Host.Outcome State Fault Refusal) = .next t.judgeDrain :=
  congrArg _ ((run.atLine happening).trans (congrArg _ acts))

/-! ## Changes of lines alone -/

/-- Only lines and metering entries differ. -/
def State.LinesOnly (s u : State) : Prop := u = { s with lines := u.lines, meters := u.meters }

namespace State.LinesOnly

variable {s u : State} (h : s.LinesOnly u)
include h

theorem ctx (c : CtxId) : u.ctx c = s.ctx c := by rw [h]; rfl

theorem others (c : CtxId) : s.OtherCtxs u c := fun d _ => h.ctx d

theorem retained : u.retained = s.retained := by rw [h]

theorem report : u.report = s.report := by rw [h]

theorem waiting : u.waiting = s.waiting := by rw [h]

theorem schedule : u.schedule = s.schedule := by rw [h]

theorem freeLines : u.freeLines = s.freeLines := by rw [h]

theorem keeps : s.Keeps u := by rw [h]; exact ⟨rfl, rfl, rfl, rfl, rfl, rfl, rfl, rfl⟩

end State.LinesOnly

theorem State.clearLine_linesOnly (s : State) (l : LineId) : s.LinesOnly (s.clearLine l) := by
  unfold State.clearLine State.LinesOnly; split <;> rfl

/-! ## The end of a context that a line hands its outcome -/

/-- A context that a line has handed its outcome (R73 step 3). -/
def Context.detached (x : Context) (last : CallOutcome) : Context :=
  { x with currentLine := none, lastOutcome := some last }

@[simp] theorem State.detach_ctx_same (s : State) (c : CtxId) (last : CallOutcome) :
    (s.detach c last).ctx c = (s.ctx c).detached last := State.modCtx_ctx_same _ _ _

theorem Context.detached_lineLeft (x : Context) (last : CallOutcome) : (x.detached last).lineLeft = none := by
  unfold Context.lineLeft; split <;> rfl

theorem Context.detached_afterEnd {x : Context} (onLine : x.state = .onLine) (last o : CallOutcome) :
    (x.detached last).afterEnd o = x.ended (some last) o := by
  rw [Context.afterEnd_eq_ended]
  simp [Context.lineLeft, Context.detached, Context.ended, onLine]

/-- The held context detaches and ends (R73 steps 3 and 4), whatever has happened to the lines. -/
theorem State.LinesOnly.detach_endContext_ends {s u : State} (h : s.LinesOnly u) {c : CtxId}
    (onLine : (s.ctx c).state = .onLine) (last o : CallOutcome) :
    s.EndsContext ((u.detach c last).endContext c o) c (some last) o where
  ctx := by
    rw [State.endContext_ctx_same, State.detach_ctx_same, h.ctx, Context.detached_afterEnd onLine]
  others := ((h.others c).trans (u.modCtx_others c _)).trans (State.endContext_others _ c o)
  booked := by
    have booked : s.afterEndRetained c = (u.detach c last).afterEndRetained c := by
      unfold State.afterEndRetained
      rw [State.detach_ctx_same, h.ctx]
      show _ = if _ then (match _ with | some a => u.retained.modAccount a _ | none => u.retained) else u.retained
      rw [h.retained]
      rfl
    exact State.endBooked_of_retained ((State.endContext_retained _ c o).trans booked.symm)
  report := by
    rw [State.endContext_report, State.detach_ctx_same, h.ctx]
    exact congrArg (ReportWriter.append · _) h.report
  free := (State.endContext_freeLines _ c o).trans h.freeLines
  keeps := (h.keeps.trans (u.detach_keeps c last)).trans (State.endContext_keeps _ c o)

section
variable {u : State} {c : CtxId} (last o : CallOutcome)

theorem State.detach_endContext_line (l : LineId) : ((u.detach c last).endContext c o).line l = u.line l := by
  rw [State.endContext_line, State.detach_ctx_same]
  exact if_neg fun k => by simp [Context.detached_lineLeft] at k

theorem State.detach_endContext_meter (l : LineId) : ((u.detach c last).endContext c o).meter l = u.meter l := by
  rw [State.endContext_meter, State.detach_ctx_same]
  exact if_neg fun k => by simp [Context.detached_lineLeft] at k

variable (onLine : (u.ctx c).state = .onLine)
include onLine

theorem State.detach_endContext_waiting : ((u.detach c last).endContext c o).waiting = u.waiting := by
  rw [State.endContext_waiting, State.detach_ctx_same]
  exact if_neg (by rw [show ((u.ctx c).detached last).state = _ from onLine]; exact CtxState.noConfusion)

theorem State.detach_endContext_schedule : ((u.detach c last).endContext c o).schedule = u.schedule := by
  rw [State.endContext_schedule, State.detach_ctx_same]
  exact if_neg (by rw [show ((u.ctx c).detached last).state = _ from onLine]; exact CtxState.noConfusion)

end

/-! ## The ending step of a line -/

section
variable {s : State} {l : LineId} {c : CtxId} (holds : s.Holds l c)
include holds

/-- The line clears, its context detaches and ends (R73). -/
theorem State.Holds.clear_detach_end (last o : CallOutcome) :
    s.EndsOnLine (((s.clearLine l).detach c last).endContext c o) l c last o := by
  have moved := s.clearLine_linesOnly l
  have onLine : ((s.clearLine l).ctx c).state = .onLine := by rw [moved.ctx, holds.onLine]
  obtain ⟨line, meter, others⟩ := State.clearLine_clears holds.offHook
  refine ⟨moved.detach_endContext_ends holds.onLine last o, ⟨?_, ?_, fun k other => ?_⟩, ?_, ?_⟩
  · rw [State.detach_endContext_line, line]
  · rw [State.detach_endContext_meter, meter]
  · rw [State.detach_endContext_line, State.detach_endContext_meter]; exact others k other
  · rw [State.detach_endContext_waiting _ _ onLine, moved.waiting]
  · rw [State.detach_endContext_schedule _ _ onLine, moved.schedule]

/-- An outcome that is not an attempt failure ends the call on its line (R73). -/
theorem State.Holds.endOnLine_endsOnLine {o : CallOutcome} (ends : ¬ (o.failureBit.isSome = true ∧ (s.ctx c).direction = .outbound)) :
    s.EndsOnLine (s.endOnLine l o) l c o o := by
  have ended : s.endOnLine l o = ((s.clearLine l).detach c o).endContext c o := by
    unfold State.endOnLine
    rw [holds.held]
    dsimp only
    rw [if_pos holds.onLine, if_neg ends]
  rw [ended]
  exact holds.clear_detach_end o o

end

/-! ## The retry wait -/

/-- The place of a context in the retry schedule (R108): behind those due at its uptime or before, ahead of the others. -/
theorem scheduleInsert_split (dueOf : CtxId → Nat) (c : CtxId) (due : Nat) (q : List CtxId) :
    ∃ before after : List CtxId, q = before ++ after ∧ scheduleInsert dueOf c due q = before ++ c :: after
      ∧ (∀ d ∈ before, dueOf d ≤ due) ∧ ∀ d ∈ after.head?, due < dueOf d := by
  induction q with
  | nil => exact ⟨[], [], rfl, rfl, by simp, by simp⟩
  | cons d rest ih =>
    obtain ⟨before, after, split, inserted, early, late⟩ := ih
    unfold scheduleInsert
    by_cases due' : dueOf d ≤ due
    · rw [if_pos due', inserted, split]
      exact ⟨d :: before, after, rfl, rfl, by simpa using ⟨due', early⟩, late⟩
    · rw [if_neg due']
      exact ⟨[], d :: rest, rfl, rfl, by simp, by simpa using due'⟩

theorem State.enterRetryWait_eq (s : State) (c : CtxId) (l : LineId) (o : CallOutcome) :
    s.enterRetryWait c l o
      = { s.withCtx c (((s.ctx c).retrying (s.retryDue c)).reporting (s.ctx c).progress s.progressRoom) with
          schedule := scheduleInsert (s.modCtx c (·.retrying (s.retryDue c))).dueOf c (s.retryDue c) s.schedule
          report := s.withProgress (s.ctx c).progress c l
            (.attemptFailed o ((s.ctx c).snapshot.intervalFor (s.ctx c).attempts)) } := by
  refine (State.queueProgressIfAsked_eq ((s.modCtx c (·.retrying (s.retryDue c))).setSchedule _) c l _).trans ?_
  unfold State.withProgress State.progressEntry
  rw [State.setSchedule_ctx, State.modCtx_ctx_same, State.modCtx_eq_withCtx]
  show State.mk .. = State.mk ..
  congr 1
  have last := congrArg State.ctxs (s.withCtx_withCtx c ((s.ctx c).retrying (s.retryDue c))
    (((s.ctx c).retrying (s.retryDue c)).reporting (s.ctx c).progress s.progressRoom))
  exact last

theorem State.enterRetryWait_dueOf (s : State) (c d : CtxId) (l : LineId) (o : CallOutcome) :
    (s.enterRetryWait c l o).dueOf d = (s.modCtx c (·.retrying (s.retryDue c))).dueOf d := by
  unfold State.dueOf
  by_cases same : d = c
  · subst same
    rw [(s.enterRetryWait_notes d l o).due, State.modCtx_ctx_same]
  · rw [s.enterRetryWait_others c l o d same, State.modCtx_others s c _ d same]

/-- Where the retry wait puts the context in the schedule (R108). -/
theorem State.enterRetryWait_placed (s : State) (c : CtxId) (l : LineId) (o : CallOutcome) :
    let t := s.enterRetryWait c l o
    ∃ before after : List CtxId, s.schedule = before ++ after ∧ t.schedule = before ++ c :: after
      ∧ (∀ d ∈ before, t.dueOf d ≤ t.dueOf c) ∧ ∀ d ∈ after.head?, t.dueOf c < t.dueOf d := by
  have own : (s.modCtx c (·.retrying (s.retryDue c))).dueOf c = s.retryDue c := by
    unfold State.dueOf; rw [State.modCtx_ctx_same]; rfl
  simp only [State.enterRetryWait_dueOf, State.enterRetryWait_schedule, own]
  exact scheduleInsert_split _ _ _ _

/-- The retry wait of a context that a line has handed its outcome (R106 to R108). -/
theorem State.Holds.clear_detach_retry {s : State} {l : LineId} {c : CtxId} (holds : s.Holds l c) (o : CallOutcome) :
    s.EntersRetry (((s.clearLine l).detach c o).enterRetryWait c l o) l c o
      ((s.ctx c).snapshot.intervalFor (s.ctx c).attempts) := by
  have moved := s.clearLine_linesOnly l
  obtain ⟨line, meter, others⟩ := State.clearLine_clears holds.offHook
  have x : ((s.clearLine l).detach c o).ctx c = (s.ctx c).detached o := by rw [State.detach_ctx_same, moved.ctx]
  have uptime : ((s.clearLine l).detach c o).uptime = s.uptime := moved.keeps.uptime
  have report : ((s.clearLine l).detach c o).report = s.report := moved.report
  have schedule : ((s.clearLine l).detach c o).schedule = s.schedule := moved.schedule
  have room : ((s.clearLine l).detach c o).progressRoom = s.progressRoom := by unfold State.progressRoom; rw [report]
  have due : ((s.clearLine l).detach c o).retryDue c
      = min (s.uptime + (s.ctx c).snapshot.intervalFor (s.ctx c).attempts) 4294967295 := by
    unfold State.retryDue
    rw [x, uptime]
    rfl
  have other : s.OtherCtxs (((s.clearLine l).detach c o).enterRetryWait c l o) c :=
    ((moved.others c).trans (State.modCtx_others _ c _)).trans (State.enterRetryWait_others _ c l o)
  obtain ⟨before, after, split, place⟩ := ((s.clearLine l).detach c o).enterRetryWait_placed c l o
  rw [State.enterRetryWait_eq, x, room] at other place ⊢
  refine ⟨⟨line, meter, others⟩, ⟨_, ?_, rfl⟩, other, ⟨before, after, schedule.symm.trans split, place⟩,
    moved.waiting, moved.freeLines, moved.retained, ?_, ?_⟩
  · show ((State.withCtx _ c _).ctx c) = _
    rw [State.withCtx_ctx_same, due]
    rfl
  · show State.withProgress _ _ _ _ _ = _
    unfold State.withProgress State.progressEntry
    rw [x, room, report]
    rfl
  · exact (moved.keeps.trans (State.detach_keeps _ c o)).trans ⟨rfl, rfl, rfl, rfl, rfl, rfl, rfl, rfl⟩

/-! ## The judgement of a failed attempt -/

theorem State.windingDown_iff {s : State} : s.windingDown = true ↔ s.ctl.engine = .draining ∨ s.ctl.engine = .aborting := by
  simp [State.windingDown]

theorem Context.allowsRetry_iff {x : Context} {o : CallOutcome} :
    x.snapshot.allowsRetry o x.attempts = true ↔ x.MayRetry o := by
  cases o <;> simp [Policy.allowsRetry, CallOutcome.failureBit, Context.MayRetry]

/-- An attempt failure ends the attempt on its line, and the context waits for a retry or ends (R73, R105 to R108, R13). -/
theorem State.Holds.endOnLine_fails {s : State} {l : LineId} {c : CtxId} (holds : s.Holds l c) {o : CallOutcome}
    (failure : o.failureBit.isSome = true) : s.AttemptFails (s.endOnLine l o) l c o := by
  have moved := s.clearLine_linesOnly l
  have x : ((s.clearLine l).detach c o).ctx c = (s.ctx c).detached o := by rw [State.detach_ctx_same, moved.ctx]
  have allows : (((s.clearLine l).detach c o).ctx c).snapshot.allowsRetry o (((s.clearLine l).detach c o).ctx c).attempts = true
      ↔ (s.ctx c).MayRetry o := by rw [x]; exact Context.allowsRetry_iff (x := s.ctx c)
  have winding : ((s.clearLine l).detach c o).windingDown = s.windingDown := by
    unfold State.windingDown; rw [show ((s.clearLine l).detach c o).ctl = s.ctl from moved.keeps.ctl]
  have uptime : ((s.clearLine l).detach c o).uptime = s.uptime := moved.keeps.uptime
  by_cases outbound : (s.ctx c).direction = .outbound
  · have judged : s.endOnLine l o = ((s.clearLine l).detach c o).judgeFailure c l o := by
      unfold State.endOnLine
      rw [holds.held]
      dsimp only
      rw [if_pos holds.onLine, if_pos ⟨failure, outbound⟩]
    rw [judged]
    have room : s.uptime = 4294967295 → ¬ s.uptime < 4294967295 := fun full => by omega
    unfold State.judgeFailure
    by_cases retry : (s.ctx c).MayRetry o
    · rw [if_pos (allows.mpr retry), winding, uptime]
      cases down : s.windingDown with
      | true =>
        have down := State.windingDown_iff.mp down
        exact ⟨fun _ up => absurd down up, fun _ _ => holds.clear_detach_end o .withdrawn,
          fun k => k.elim (absurd ⟨outbound, retry⟩) fun k => absurd down k.1⟩
      | false =>
        have up : ¬ (s.ctl.engine = .draining ∨ s.ctl.engine = .aborting) := fun k => by
          rw [State.windingDown_iff.mpr k] at down; exact Bool.noConfusion down
        by_cases full : s.uptime = Config.max32
        · rw [if_neg Bool.noConfusion, if_pos full]
          exact ⟨fun _ _ below => absurd below (room full), fun _ down => absurd down up,
            fun _ => holds.clear_detach_end o o⟩
        · rw [if_neg Bool.noConfusion, if_neg full]
          refine ⟨fun _ _ _ => ⟨_, holds.clear_detach_retry o, fun k found => ?_⟩, fun _ down => absurd down up,
            fun k => k.elim (absurd ⟨outbound, retry⟩) fun k => absurd k.2 full⟩
          unfold Policy.intervalFor
          rw [List.getD_eq_getElem?_getD, found]
          rfl
    · rw [if_neg fun k => retry (allows.mp k)]
      exact ⟨fun k => absurd k.2 retry, fun k => absurd k.2 retry, fun _ => holds.clear_detach_end o o⟩
  · have ended := holds.endOnLine_endsOnLine (o := o) fun k => outbound k.2
    exact ⟨fun retry => absurd retry.1 outbound, fun retry => absurd retry.1 outbound, fun _ => ended⟩

/-! ## The obligations -/

/-- Settles O48: a running timer ends the attempt on the line that it belongs to. -/
theorem attemptTimersEndTheAttempt : Obligations.AttemptTimersEndTheAttempt := by
  unfold Obligations.AttemptTimersEndTheAttempt
  intro l s run
  refine ⟨fun c holds => ⟨fun runs => ?_, fun runs => ?_, fun runs => ?_⟩, fun stopped => ?_, fun stopped => ?_,
    fun stopped => ?_⟩
  · exact ⟨_, State.LinesRun.exec_of run (if_pos (Option.isSome_iff_ne_none.mpr runs)), holds.endOnLine_fails rfl⟩
  · exact ⟨_, State.LinesRun.exec_of run (if_pos (Option.isSome_iff_ne_none.mpr runs)), holds.endOnLine_fails rfl⟩
  · exact ⟨_, State.LinesRun.exec_of run (if_pos (Option.isSome_iff_ne_none.mpr runs)), holds.endOnLine_fails rfl⟩
  · exact State.LinesRun.exec_of run (if_neg (by rw [stopped]; exact Bool.noConfusion))
  · exact State.LinesRun.exec_of run (if_neg (by rw [stopped]; exact Bool.noConfusion))
  · exact State.LinesRun.exec_of run (if_neg (by rw [stopped]; exact Bool.noConfusion))

/-- Settles O49: a running timer ends the call on the line that it belongs to. -/
theorem callTimersEndTheCall : Obligations.CallTimersEndTheCall := by
  unfold Obligations.CallTimersEndTheCall
  intro l s run
  have ends {c : CtxId} (holds : s.Holds l c) {o : CallOutcome} (none : o.failureBit = none) :=
    holds.endOnLine_endsOnLine (o := o) fun k => by rw [none] at k; exact Bool.noConfusion k.1
  refine ⟨fun c holds => ⟨fun runs => ?_, fun runs normal => ?_, fun runs noLoop => ?_⟩, fun stopped => ?_,
    fun stopped => ?_⟩
  · exact ⟨_, State.LinesRun.exec_of run (if_pos (Option.isSome_iff_ne_none.mpr runs)), ends holds rfl⟩
  · refine ⟨_, State.LinesRun.exec_of run ((if_pos (Option.isSome_iff_ne_none.mpr runs)).trans ?_), ends holds rfl⟩
    rw [normal]
  · refine ⟨_, State.LinesRun.exec_of run ((if_pos (Option.isSome_iff_ne_none.mpr runs)).trans ?_), ends holds rfl⟩
    rw [noLoop]
  · exact State.LinesRun.exec_of run (if_neg (by rw [stopped]; exact Bool.noConfusion))
  · exact State.LinesRun.exec_of run (if_neg (by rw [stopped]; exact Bool.noConfusion))

end Sys2Proof.Machine
end

section
/-! PROOF. Lines that ring and come to rest (R51, R76, R92 to R95, R100). -/

namespace Sys2Proof.Machine

/-! ## A line that rests -/

/-- A line that rests without disable-pending: IDLE, at the tail of the free line list (R76, R95). -/
theorem State.withLine_lineRests_idle (s : State) (l : LineId) {x : Line} (enabled : x.disablePending = false) :
    (s.withLine l x).lineRests l = (s.setFree (s.freeLines ++ [l])).withLine l { x with state := .idle } := by
  unfold State.lineRests
  rw [State.withLine_line_same, if_neg (Bool.eq_false_iff.mp enabled), State.withLine_modLine]
  rfl

/-- A line that rests with disable-pending: DISABLED, the sweep behind it (R35, R52). -/
theorem State.withLine_lineRests_disabled (s : State) (l : LineId) {x : Line} (pending : x.disablePending = true) :
    (s.withLine l x).lineRests l = (s.withLine l { x with state := .disabled, disablePending := false }).sweep := by
  unfold State.lineRests
  rw [State.withLine_line_same, if_pos pending, State.withLine_modLine]

theorem State.clearGuardOut_of_runs {s : State} {l : LineId} (state : (s.line l).state = .clearing)
    (runs : (s.line l).clearGuard ≠ none) :
    s.clearGuardOut l = ((s.withLine l { s.line l with clearGuard := none }).lineRests l).pass :=
  if_pos ⟨state, Option.isSome_iff_ne_none.mpr runs⟩

/-- The ring gap runs out: the line rests, and RING_GONE follows for an announced line (R95, log 13). -/
theorem State.ringGapOut_of_runs {s v : State} {l : LineId} (state : (s.line l).state = .ringing)
    (runs : (s.line l).ringGap ≠ none) (rests : (s.withLine l { s.line l with ringGap := none }).lineRests l = v) :
    s.ringGapOut l
      = { v.withLine l { v.line l with announced := false } with
          report := if (s.line l).announced then v.afterUnsolicited (.ringGone l) else v.report }.pass := by
  subst rests
  unfold State.ringGapOut
  rw [if_pos ⟨state, Option.isSome_iff_ne_none.mpr runs⟩]
  cases (s.line l).announced with
  | true =>
    show State.pass (State.modLine (State.queueUnsolicited _ _) l _) = _
    rw [State.queueUnsolicited_eq]
    rfl
  | false => rfl

/-- Settles O47: the rest of a line by its disable-pending mark, behind ring gap and clear guard alike. -/
theorem lineReturnsToRest : Obligations.LineReturnsToRest := by
  unfold Obligations.LineReturnsToRest
  intro l s run ln
  refine ⟨fun runs inactive ringing => ?_, fun state runs enabled => ?_, fun state runs pending => ?_,
    fun state runs enabled => ?_, fun state runs pending => ?_, fun stopped => ?_, fun stopped => ?_⟩
  · exact run.exec_of (if_pos ⟨Option.isSome_iff_ne_none.mpr runs, inactive, ringing⟩)
  · exact run.exec_of ((State.clearGuardOut_of_runs state runs).trans
      (congrArg State.pass (s.withLine_lineRests_idle l (x := { ln with clearGuard := none }) enabled)))
  · exact run.exec_of ((State.clearGuardOut_of_runs state runs).trans
      (congrArg State.pass (s.withLine_lineRests_disabled l (x := { ln with clearGuard := none }) pending)))
  · refine run.exec_of ((State.ringGapOut_of_runs state runs
      (s.withLine_lineRests_idle l (x := { ln with ringGap := none }) enabled)).trans (congrArg State.pass ?_))
    rw [State.withLine_line_same, State.withLine_withLine]
    rfl
  · exact run.exec_of (State.ringGapOut_of_runs state runs
      (s.withLine_lineRests_disabled l (x := { ln with ringGap := none }) pending))
  · refine run.exec_of (if_neg fun k => ?_)
    exact stopped.elim (fun h => h k.1) fun h => by rw [h] at k; exact Bool.noConfusion k.2
  · refine run.exec_of (if_neg fun k => ?_)
    exact stopped.elim (fun h => h k.1) fun h => by rw [h] at k; exact Bool.noConfusion k.2

/-! ## A qualified ring -/

section
variable {s : State} {l : LineId}

/-- A ring is qualified: the ring level is kept, and its effect follows (R92, R94). -/
theorem State.qualifyRing_of_rings (timed : (s.line l).ringQual ≠ none) (active : (s.line l).ringRaw = true)
    (quiet : (s.line l).ringLevel = false) :
    s.qualifyRing l = (s.withLine l { s.line l with ringLevel := true, ringQual := none }).ringArrives l :=
  if_pos ⟨Option.isSome_iff_ne_none.mpr timed, active, quiet⟩

theorem State.ringArrives_ringing (h : (s.line l).state = .ringing) :
    s.ringArrives l = s.modLine l fun x => { x with ringGap := none } := by unfold State.ringArrives; rw [h]

theorem State.ringArrives_seize (h : (s.line l).state = .seize) : s.ringArrives l = s.glare l := by
  unfold State.ringArrives; rw [h]

theorem State.ringArrives_resting (h : (s.line l).state ∈ [.idle, .clearing]) :
    s.ringArrives l = if s.ctl.engine = .running then s.ringIn l else s := by
  unfold State.ringArrives
  rcases List.mem_pair.mp h with h | h <;> rw [h]

theorem State.ringArrives_still
    (h : (s.line l).state ∈ [.dialing, .awaitAnswer, .connected, .answering, .connectedIn, .disabled, .fault]) :
    s.ringArrives l = s := by
  unfold State.ringArrives
  cases k : (s.line l).state <;> simp [k] at h ⊢

/-- RING_IN is queued for a line, and the line is announced (R93, R100). -/
theorem State.withLine_announced (s : State) (l : LineId) (x : Line) :
    ((s.withLine l x).queueUnsolicited (.ringIn l)).modLine l (fun ln => { ln with announced := true })
      = { s.withLine l { x with announced := true } with report := s.afterUnsolicited (.ringIn l) } := by
  rw [State.queueUnsolicited_eq]
  exact State.withLine_modLine { s with report := s.afterUnsolicited (.ringIn l) } l x _

/-- A ring on a free or clearing line in RUNNING (R93). -/
theorem State.withLine_ringIn (s : State) (l : LineId) (x : Line) :
    (s.withLine l x).ringIn l
      = { s.withLine l { x with state := .ringing, clearGuard := none, ringGap := none, announced := true } with
          freeLines := s.freeLines.filter fun k => decide (k ≠ l)
          report := s.afterUnsolicited (.ringIn l) }.pass := by
  have left : (s.withLine l x).leaveFree l = (s.setFree (s.freeLines.filter fun k => decide (k ≠ l))).withLine l x := rfl
  unfold State.ringIn
  dsimp only
  rw [left, State.withLine_modLine, State.withLine_announced]
  rfl

/-- The context whose attempt glare abandoned, its attempt and last line given back (R51). -/
def Context.glared (x : Context) : Context :=
  { x with currentLine := none, attempts := x.attempts - 1, lastLine := x.prevLine }

theorem State.glareReturn_of_up {u : State} {c : CtxId} (up : u.windingDown = false) :
    u.glareReturn c
      = (u.withCtx c { (u.ctx c).glared with state := .pending }).setWaiting (u.waiting.joinHead (u.ctx c).origin c) := by
  unfold State.glareReturn
  rw [if_neg (Bool.eq_false_iff.mp up), State.modCtx_eq_withCtx u, State.withCtx_modCtx]
  rfl

/-- The ending step of a context that no line holds (R11), ON_LINE or not: no line changes. -/
theorem State.endContext_ends_unlined {u : State} {c : CtxId} (h : (u.ctx c).lineLeft = none) (o : CallOutcome) :
    u.EndsContext (u.endContext c o) c (u.ctx c).lastOutcome o ∧ u.SameLines (u.endContext c o) := by
  have ends := u.endContext_ends c o
  rw [h] at ends
  refine ⟨ends, fun k => ?_⟩
  rw [State.endContext_line, State.endContext_meter, h, if_neg fun k => Option.noConfusion rfl (heq_of_eq k.1),
    if_neg fun k => Option.noConfusion rfl (heq_of_eq k.1)]
  exact ⟨rfl, rfl⟩

theorem State.glareReturn_of_down {u : State} {c : CtxId} (down : u.windingDown = true) :
    u.glareReturn c = (u.withCtx c (u.ctx c).glared).endContext c .withdrawn := if_pos down

/-- Glare outside RUNNING: the line rings, its context goes back (R100, R13). -/
theorem State.withLine_glare_of_not_running {x : Line} {c : CtxId} (held : x.held = some c)
    (onLine : (s.ctx c).state = .onLine) (stopped : s.ctl.engine ≠ .running) :
    (s.withLine l x).glare l = ((s.withLine l x.toGlare).glareReturn c) := by
  have returned : ((s.withLine l x.toGlare).glareReturn c).ctl.engine ≠ .running := by
    rw [(State.glareReturn_keeps _ c).ctl]; exact stopped
  unfold State.glare
  dsimp only
  rw [State.withLine_line_same, held, State.withLine_modLine]
  dsimp only
  rw [if_pos (show ((s.withLine l x).ctx c).state = .onLine from onLine), if_neg (show ¬ (s.withLine l x).ctl.engine = _ from stopped),
    State.pass_of_not_running returned]

/-- Glare in RUNNING (R51, R100): the context rejoins the head of its class, the line rings and RING_IN is queued. -/
theorem State.withLine_glare_of_running {x : Line} {c : CtxId} (held : x.held = some c)
    (onLine : (s.ctx c).state = .onLine) (running : s.ctl.engine = .running) :
    (s.withLine l x).glare l
      = { s.withLine l { x.toGlare with announced := true } with
          ctxs := s.ctxs.set c { s.ctx c with
            currentLine := none, attempts := (s.ctx c).attempts - 1, lastLine := (s.ctx c).prevLine, state := .pending }
          waiting := s.waiting.joinHead (s.ctx c).origin c
          report := s.afterUnsolicited (.ringIn l) }.pass := by
  have up : (s.withLine l x.toGlare).windingDown = false := by
    unfold State.windingDown; rw [show (s.withLine l x.toGlare).ctl.engine = _ from running]; rfl
  unfold State.glare
  dsimp only
  rw [State.withLine_line_same, held, State.withLine_modLine]
  dsimp only
  rw [if_pos (show ((s.withLine l x).ctx c).state = .onLine from onLine),
    if_pos (show (s.withLine l x).ctl.engine = _ from running), State.glareReturn_of_up up]
  exact congrArg State.pass (State.withLine_announced
    ((s.withCtx c { (s.ctx c).glared with state := .pending }).setWaiting (s.waiting.joinHead (s.ctx c).origin c)) l x.toGlare)

/-- In RUNNING the drain condition is not judged (R161). -/
theorem State.pass_judgeDrain {u : State} (running : u.ctl.engine = .running) : u.pass.judgeDrain = u.pass :=
  State.judgeDrain_of_not_draining (by rw [u.pass_keeps.ctl, running]; exact EngineState.noConfusion)

end

/-- Glare while the engine drains: the context ends with WITHDRAWN (R13). -/
theorem State.withLine_glareReturn_ends {s : State} {l : LineId} {x : Line} {c : CtxId} (onLine : (s.ctx c).state = .onLine)
    (draining : s.ctl.engine = .draining) :
    ((s.withLine l x).withCtx c (s.ctx c).glared).EndsContext ((s.withLine l x).glareReturn c) c (s.ctx c).lastOutcome
        .withdrawn
      ∧ (s.withLine l x).SameLines ((s.withLine l x).glareReturn c)
      ∧ ((s.withLine l x).glareReturn c).waiting = s.waiting ∧ ((s.withLine l x).glareReturn c).schedule = s.schedule := by
  have glared : ((s.withLine l x).withCtx c (s.ctx c).glared).ctx c = (s.ctx c).glared := State.withCtx_ctx_same _ _ _
  have unlined : (((s.withLine l x).withCtx c (s.ctx c).glared).ctx c).lineLeft = none := by
    rw [glared]; unfold Context.lineLeft; split <;> rfl
  have state : (((s.withLine l x).withCtx c (s.ctx c).glared).ctx c).state = .onLine := by rw [glared]; exact onLine
  obtain ⟨ends, lines⟩ := State.endContext_ends_unlined unlined .withdrawn
  rw [State.glareReturn_of_down (u := s.withLine l x) (State.windingDown_iff.mpr (.inl draining))]
  refine ⟨?_, lines, ?_, ?_⟩
  · rw [glared] at ends; exact ends
  · refine (State.endContext_waiting _ c _).trans (if_neg ?_)
    exact fun k => CtxState.noConfusion (state.symm.trans k)
  · refine (State.endContext_schedule _ c _).trans (if_neg ?_)
    exact fun k => CtxState.noConfusion (state.symm.trans k)

/-- Settles O46: what a qualified ring does, by the state of the line. -/
theorem qualifiedRingActsByLineState : Obligations.QualifiedRingActsByLineState := by
  unfold Obligations.QualifiedRingActsByLineState
  intro l s run timed active quiet ln u seized
  have rings := State.qualifyRing_of_rings timed active quiet
  have line : u.line l = ln := s.withLine_line_same l ln
  have state {x : LineState} (h : ln.state = x) : (u.line l).state = x := (congrArg Line.state line).trans h
  have arrives {t : State} (h : u.ringArrives l = t) :
      exec (.qualifiedRing l) s = .next t.judgeDrain := run.exec_of (rings.trans h)
  refine ⟨fun resting running => ?_, fun still => ?_, fun ringing => ?_, fun c holds seize => ⟨fun running => ?_, fun draining => ?_⟩⟩
  · have comes : u.ringArrives l = u.ringIn l :=
      (State.ringArrives_resting (by rw [line]; exact resting)).trans (if_pos running)
    exact (arrives (comes.trans (s.withLine_ringIn l ln))).trans (congrArg _ (State.pass_judgeDrain running))
  · refine arrives ?_
    rcases still with still | ⟨resting, stopped⟩
    · exact State.ringArrives_still (by rw [line]; exact still)
    · exact (State.ringArrives_resting (by rw [line]; exact resting)).trans (if_neg stopped)
  · exact arrives ((State.ringArrives_ringing (state ringing)).trans (s.withLine_modLine l ln _))
  · have held : ln.held = some c := (congrArg Line.held line).symm.trans holds.held
    exact (arrives ((State.ringArrives_seize (state seize)).trans
      (State.withLine_glare_of_running held holds.onLine running))).trans (congrArg _ (State.pass_judgeDrain running))
  · have held : ln.held = some c := (congrArg Line.held line).symm.trans holds.held
    have stopped : s.ctl.engine ≠ .running := by rw [draining]; exact EngineState.noConfusion
    exact ⟨_, arrives ((State.ringArrives_seize (state seize)).trans
      (State.withLine_glare_of_not_running held holds.onLine stopped)),
      State.withLine_glareReturn_ends (x := ln.toGlare) holds.onLine draining⟩

end Sys2Proof.Machine
end

section
/-! PROOF. Dialling symbol by symbol (R63 to R67), and the classifier's reports as the line controller takes them (R90). -/

namespace Sys2Proof.Machine

/-! ## Symbols -/

section
variable {s : State} {l : LineId} {c : CtxId} {y : Line} {pos : Nat}

theorem State.withLine_beginSymbol_some (s : State) (l : LineId) (y : Line) {symbol : Symbol}
    (next : (s.ctx c).symbols[pos]? = some symbol) :
    (s.withLine l y).beginSymbol l c (pos + 1) = s.withLine l (y.sending (pos + 1) symbol) := by
  rw [State.beginSymbol_some (s := s.withLine l y) (pos := pos + 1) next, State.withLine_line_same, State.withLine_withLine]

/-- A symbol is finished on a dialling line (R63). -/
theorem State.withLine_finishSymbol (s : State) (l : LineId) (dialing : y.state = .dialing) (held : y.held = some c)
    (at' : y.digitPos = some pos) : (s.withLine l y).finishSymbol l = (s.withLine l y).beginSymbol l c (pos + 1) := by
  unfold State.finishSymbol
  rw [State.withLine_line_same, if_pos dialing, held, at']

/-- Behind the last symbol (R67): AWAIT_ANSWER, or the answer when the pattern already is REVERSED. -/
theorem State.withLine_beginSymbol_none (s : State) (l : LineId) (y : Line) (none : (s.ctx c).symbols[pos]? = none) :
    (s.withLine l y).beginSymbol l c (pos + 1)
      = if y.loopPattern = .reversed then (s.withLine l (y.awaiting (s.ctx c).answerTimeout)).answer l
        else s.withLine l (y.awaiting (s.ctx c).answerTimeout) := by
  rw [State.beginSymbol_none (s := s.withLine l y) (pos := pos + 1) none, State.awaitAnswerEntry_eq, State.withLine_line_same,
    State.withLine_withLine]
  rfl

/-- What becomes of a finished symbol (R63, R67), for whatever finishes it. -/
theorem State.LinesRun.exec_finishes {s : State} {happening : State → State} (run : s.LinesRun)
    (finishes : happening s = (s.withLine l y).finishSymbol l) (dialing : y.state = .dialing) (held : y.held = some c)
    (at' : y.digitPos = some pos) :
    let done : Host.Outcome State Fault Refusal := .next (s.atLine happening)
    (∀ symbol : Symbol, (s.ctx c).symbols[pos]? = some symbol →
        done = .next (s.withLine l (y.sending (pos + 1) symbol)).judgeDrain)
      ∧ ((s.ctx c).symbols[pos]? = none →
        let v := s.withLine l (y.awaiting (s.ctx c).answerTimeout)
        (y.loopPattern ≠ .reversed → done = .next v.judgeDrain)
          ∧ (y.loopPattern = .reversed → done = .next (v.answer l).judgeDrain)) := by
  have begins := finishes.trans (State.withLine_finishSymbol s l dialing held at')
  refine ⟨fun symbol next => run.exec_of (begins.trans (State.withLine_beginSymbol_some s l y next)), fun none => ?_⟩
  have behind := begins.trans (State.withLine_beginSymbol_none s l y none)
  exact ⟨fun other => run.exec_of (behind.trans (if_neg other)), fun reversed => run.exec_of (behind.trans (if_pos reversed))⟩

end

/-- Settles O50: the digit timer and the pause timer finish symbols alike. -/
theorem diallingGoesSymbolBySymbol : Obligations.DiallingGoesSymbolBySymbol := by
  unfold Obligations.DiallingGoesSymbolBySymbol
  intro l s run ln
  refine ⟨fun runs sounds => ?_, fun c pos holds dialing at' i done kind => ?_⟩
  · exact run.exec_of ((if_pos (Option.isSome_iff_ne_none.mpr runs)).trans (if_pos (Option.isSome_iff_ne_none.mpr sounds)))
  · have held : ln.held = some c := holds.held
    rcases kind with ⟨rfl, runs, silent, rfl⟩ | ⟨rfl, runs, rfl⟩
    · have out : s.digitTimerRunsOut l = (s.withLine l { ln with digitTimer := none }).finishSymbol l :=
        (if_pos (Option.isSome_iff_ne_none.mpr runs)).trans
          (if_neg fun k => by rw [show (s.line l).drive = none from silent] at k; exact Bool.noConfusion k)
      exact run.exec_finishes out dialing held at'
    · have out : s.pauseTimerOut l = (s.withLine l { ln with pauseTimer := none }).finishSymbol l :=
        if_pos (Option.isSome_iff_ne_none.mpr runs)
      exact run.exec_finishes out dialing held at'

/-! ## Classifier reports -/

section
variable {s : State} {l : LineId} {c : CtxId}

/-- A report of an earlier enabled period is discarded (R90). -/
theorem State.takeClassReport_of {q : ClassReport} {rest : List ClassReport} (reports : (s.line l).reports = q :: rest) :
    s.takeClassReport l
      = if q.stale then s.withLine l { s.line l with reports := rest }
        else (s.withLine l { s.line l with reports := rest }).classTaken l q.cls := by
  unfold State.takeClassReport
  rw [reports]
  rfl

/-- The classes that a line controller does not act on (R62, R66, R68). -/
theorem State.classTaken_ignored {cls : ToneClass}
    (h : ((s.line l).state ≠ .awaitAnswer ∧ cls ≠ .dial)
      ∨ ((s.line l).state = .awaitAnswer ∧ cls ∈ [ToneClass.dial, .unknown])
      ∨ ((s.line l).state = .seize ∧ (s.line l).dialToneWait = false)
      ∨ ((s.line l).state = .dialing ∧ (s.line l).dialToneTimer = none)
      ∨ (s.line l).state ∉ [LineState.seize, .dialing, .awaitAnswer]) : s.classTaken l cls = s := by
  unfold State.classTaken
  cases state : (s.line l).state <;> simp [state] at h ⊢
  case seize => exact fun waits dial => by simp [dial, waits] at h
  case dialing => exact fun runs dial => by simp [dial, Option.isSome_iff_ne_none.mp runs] at h
  case awaitAnswer => rcases h with rfl | rfl <;> rfl

theorem State.classTaken_seize (state : (s.line l).state = .seize) (waits : (s.line l).dialToneWait = true) :
    s.classTaken l .dial = s.dialToneHeard l := by
  unfold State.classTaken
  simp [state, waits]

theorem State.classTaken_dialing (state : (s.line l).state = .dialing) (runs : (s.line l).dialToneTimer ≠ none) :
    s.classTaken l .dial = s.dialToneHeard l := by
  unfold State.classTaken
  simp [state, Option.isSome_iff_ne_none.mpr runs]

theorem State.classTaken_awaitAnswer (state : (s.line l).state = .awaitAnswer) :
    s.classTaken l .ringback = s.ringingHeard l ∧ s.classTaken l .busy = s.endOnLine l .busy
      ∧ s.classTaken l .congestion = s.endOnLine l .congestion := by
  unfold State.classTaken
  simp [state]

/-- RINGBACK heard in AWAIT_ANSWER (R68): a RINGING report, or its drop counted. -/
theorem State.ringingHeard_eq (held : (s.line l).held = some c) :
    ((s.ctx c).progress = true → s.progressRoom = true →
        s.ringingHeard l = { s with report := s.report.append [s.progressEntry c l .ringing (s.ctx c).attempts] })
      ∧ ((s.ctx c).progress = true → s.progressRoom = false →
        s.ringingHeard l = s.withCtx c { s.ctx c with drops := min ((s.ctx c).drops + 1) 255 })
      ∧ ((s.ctx c).progress = false → s.ringingHeard l = s) := by
  have heard : s.ringingHeard l = s.queueProgressIfAsked c l .ringing := by
    unfold State.ringingHeard
    rw [held]
  rw [heard, State.queueProgressIfAsked_eq]
  unfold State.withProgress
  refine ⟨fun asked room => ?_, fun asked full => ?_, fun unasked => ?_⟩
  · rw [asked, room]
    exact congrArg (fun u : State => ({ u with report := s.report.append _ } : State)) (s.withCtx_self c)
  · rw [asked, full]
    rfl
  · rw [unasked]
    exact s.withCtx_self c

/-- The dial tone heard (R62, R66) on a line in any state. -/
theorem State.withLine_dialToneHeard (s : State) (l : LineId) {x : Line} (held : x.held = some c) :
    (s.withLine l x).dialToneHeard l =
      if x.state = .seize then
        (s.withLine l { x.deaf with dialToneTimer := none, state := .dialing, dialToneWait := false }).beginSymbol l c 1
      else (s.withLine l { x.deaf with dialToneTimer := none }).finishSymbol l := by
  rw [State.dialToneHeard_eq (s := s.withLine l x) (by rw [State.withLine_line_same]; exact held), State.withLine_line_same,
    State.withLine_withLine, State.withLine_withLine]

end

/-- Settles O51: what the line controller does with the oldest report of its classifier. -/
theorem classReportActsByLineState : Obligations.ClassReportActsByLineState := by
  unfold Obligations.ClassReportActsByLineState
  intro l q rest s run reports ln u
  have line : u.line l = ln := s.withLine_line_same l ln
  have state {x : LineState} (h : ln.state = x) : (u.line l).state = x := (congrArg Line.state line).trans h
  have takes : s.takeClassReport l = if q.stale then u else u.classTaken l q.cls := State.takeClassReport_of reports
  have fresh {t : State} {cls : ToneClass} (current : q.stale = false) (same : q.cls = cls) (h : u.classTaken l cls = t) :
      s.takeClassReport l = t := takes.trans ((if_neg (Bool.eq_false_iff.mp current)).trans (by rw [same]; exact h))
  refine ⟨fun ignored => ?_, fun c holds current => ?_⟩
  · refine run.exec_of (takes.trans ?_)
    cases stale : q.stale with
    | true => rfl
    | false =>
      refine State.classTaken_ignored ?_
      rw [line]
      exact (or_iff_right (Bool.eq_false_iff.mp stale)).mp ignored
  · have held : ln.held = some c := (congrArg Line.held line).symm.trans holds.held
    have heard := s.withLine_dialToneHeard l held
    refine ⟨fun symbol dial seize waits next => ?_, fun pos dial dialing runs at' => ?_, fun ringback awaits => ?_,
      fun busy awaits => ?_, fun congestion awaits => ?_⟩
    · have hears := fresh current dial (State.classTaken_seize (state seize) (by rw [line]; exact waits))
      exact run.exec_of ((hears.trans (heard.trans (if_pos seize))).trans
        (State.withLine_beginSymbol_some (pos := 0) s l { ln.deaf with dialToneTimer := none, state := .dialing, dialToneWait := false } next))
    · have hears := fresh current dial (State.classTaken_dialing (state dialing) (by rw [line]; exact runs))
      exact run.exec_finishes (hears.trans (heard.trans (if_neg (by rw [dialing]; exact LineState.noConfusion)))) dialing held at'
    · have rings := fresh current ringback (State.classTaken_awaitAnswer (state awaits)).1
      obtain ⟨queued, dropped, unasked⟩ := State.ringingHeard_eq holds.held
      exact ⟨fun asked room => run.exec_of (rings.trans (queued asked room)),
        fun asked full => run.exec_of (rings.trans (dropped asked full)), fun no => run.exec_of (rings.trans (unasked no))⟩
    · exact ⟨_, run.exec_of (fresh current busy (State.classTaken_awaitAnswer (state awaits)).2.1), holds.endOnLine_fails rfl⟩
    · exact ⟨_, run.exec_of (fresh current congestion (State.classTaken_awaitAnswer (state awaits)).2.2),
        holds.endOnLine_fails rfl⟩

end Sys2Proof.Machine
end

section
/-! PROOF. The call-progress classifier: periods, cycles and classes (R83 to R90). -/

namespace Sys2Proof.Machine

/-! ## A class, and a change of it reported -/

/-- A line whose classifier has the class `cls`, a change of class reported (R90). -/
theorem Line.setClass_eq (ln : Line) (cls : ToneClass) :
    ln.setClass cls = { ln with classifier := { ln.classifier with cls := cls }, reports := ln.reported cls } := by
  unfold Line.setClass Line.reported
  by_cases same : ln.classifier.cls = cls
  · rw [if_pos same, if_pos same, ← same]
  · rw [if_neg same, if_neg same]

/-- What a judged cycle makes of a line: the class, its report, and the run of short cycles. -/
def Line.classed (ln : Line) (j : ToneClass × Nat × Option MatchKind) : Line :=
  { ln with
    classifier := { ln.classifier with cls := j.1, matchCount := j.2.1, matchKind := j.2.2 }
    reports := ln.reported j.1 }

/-- A short cycle (R87): the second of a run sets the class, the first keeps it. -/
theorem Line.shortCycle_eq (ln : Line) (kind : MatchKind) :
    ln.shortCycle kind
      = ln.classed (if ln.classifier.matchKind = some kind ∧ 1 ≤ ln.classifier.matchCount then (kind.toneClass, 2, some kind)
          else (ln.classifier.cls, 1, some kind)) := by
  unfold Line.shortCycle
  by_cases run : ln.classifier.matchKind = some kind ∧ 1 ≤ ln.classifier.matchCount
  · have two : min (ln.classifier.matchCount + 1) 2 = 2 := by omega
    rw [if_pos run, if_pos run.1, two]
    exact Line.setClass_eq _ _
  · have one : (if ln.classifier.matchKind = some kind then min (ln.classifier.matchCount + 1) 2 else 1) = 1 := by
      split
      · rename_i same
        have : ln.classifier.matchCount = 0 := by by_contra k; exact run ⟨same, by omega⟩
        omega
      · rfl
    have kept : ln.reported ln.classifier.cls = ln.reports := if_pos rfl
    rw [if_neg run, one]
    unfold Line.classed
    rw [kept]
    rfl

theorem Line.loseCadence_eq (ln : Line) : ln.loseCadence = ln.classed (.unknown, 0, none) := Line.setClass_eq _ _

/-- A cycle judged (R86 to R89). -/
theorem Line.judgeCycle_eq (ln : Line) (on off : Nat) :
    ln.judgeCycle on off = ln.classed (ln.classifier.afterCycle on off) := by
  unfold Line.judgeCycle cycleKind Classifier.afterCycle
  by_cases busy : 350 ≤ on ∧ on ≤ 650 ∧ 350 ≤ off ∧ off ≤ 650
  · rw [if_pos busy, if_pos busy]
    exact ln.shortCycle_eq .busy
  · rw [if_neg busy, if_neg busy]
    by_cases congestion : 150 ≤ on ∧ on ≤ 349 ∧ 150 ≤ off ∧ off ≤ 349
    · rw [if_pos congestion, if_pos congestion]
      exact ln.shortCycle_eq .congestion
    · rw [if_neg congestion, if_neg congestion]
      by_cases ringback : 700 ≤ on ∧ on ≤ 1500 ∧ 2000 ≤ off ∧ off ≤ 5000
      · rw [if_pos ringback, if_pos ringback]
        exact Line.setClass_eq _ _
      · rw [if_neg ringback, if_neg ringback]
        exact ln.loseCadence_eq

/-! ## Periods -/

/-- The tone stops (R83, R85): a dial tone is over, and a whole ON period is kept as a cycle's. -/
theorem Line.toneStops_eq (ln : Line) :
    let cls := if ln.classifier.cls = .dial then .unknown else ln.classifier.cls
    ln.toneStops
      = { ln with
          classifier := { ln.classifier with
            cls := cls, level := false, periodOn := false, elapsed := 0, whole := true
            cycleOn := if ln.classifier.whole then some ln.classifier.elapsed else none }
          reports := ln.reported cls } := by
  have ended : (if ln.classifier.cls = .dial then ln.setClass .unknown else ln)
      = ln.setClass (if ln.classifier.cls = .dial then .unknown else ln.classifier.cls) := by
    by_cases dial : ln.classifier.cls = .dial
    · rw [if_pos dial, if_pos dial]
    · rw [if_neg dial, if_neg dial]
      exact (if_pos rfl).symm
  unfold Line.toneStops
  dsimp only
  rw [ended, Line.setClass_eq]
  cases ln.classifier.whole <;> rfl

/-- The tone returns behind a whole OFF period of a cycle whose on-duration is held (R83, R86). -/
theorem Line.toneReturns_cycle {ln : Line} {on : Nat} (whole : ln.classifier.whole = true)
    (held : ln.classifier.cycleOn = some on) :
    ln.toneReturns = (ln.classed (ln.classifier.afterCycle on ln.classifier.elapsed)).openPeriod true none := by
  unfold Line.toneReturns
  rw [held]
  exact (if_pos whole).trans (congrArg (Line.openPeriod · true none) (ln.judgeCycle_eq _ _))

/-- The tone returns with no cycle to judge (R83). -/
theorem Line.toneReturns_no_cycle {ln : Line} (none' : ln.classifier.whole = false ∨ ln.classifier.cycleOn = none) :
    ln.toneReturns = ln.openPeriod true none := by
  unfold Line.toneReturns
  cases held : ln.classifier.cycleOn with
  | none => rfl
  | some on =>
    have part : ln.classifier.whole = false := none'.resolve_right (by rw [held]; exact Option.some_ne_none on)
    exact if_neg (Bool.eq_false_iff.mp part)

/-- The marks of a running period (R85, R89). -/
theorem Line.dialMark_eq {ln : Line} (enabled : ln.classifier.enabled = true) (on : ln.classifier.periodOn = true)
    (new : ln.classifier.cls ≠ .dial) :
    ln.dialMark
      = { ln with
          classifier := { ln.classifier with cls := .dial, elapsed := max ln.classifier.elapsed 1000 }
          reports := ln.reports ++ [{ cls := .dial, stale := false }] } := by
  unfold Line.dialMark
  rw [enabled, on, decide_eq_true new]
  exact if_neg new

theorem Line.offOverrun_eq {ln : Line} (enabled : ln.classifier.enabled = true) (off : ln.classifier.periodOn = false)
    (whole : ln.classifier.whole = true) (held : ln.classifier.cycleOn ≠ none) :
    ln.offOverrun
      = { ln with
          classifier := { ln.classifier with
            cls := .unknown, matchCount := 0, matchKind := none, cycleOn := none
            elapsed := max ln.classifier.elapsed 5001 }
          reports := ln.reported .unknown } := by
  unfold Line.offOverrun
  rw [enabled, off, whole, Option.isSome_iff_ne_none.mpr held]
  exact Line.loseCadence_eq _

/-- Settles O45: the changes of a classifier, one by one. -/
theorem classifierMeasuresTheTone : Obligations.ClassifierMeasuresTheTone := by
  unfold Obligations.ClassifierMeasuresTheTone
  intro l s run ln k kept
  have qualifies {x : Line} (timed : ln.toneQual ≠ none) (h : kept.toneChanged ln.toneRaw = x) :
      exec (.toneEnergyQualified l) s = .next (s.withLine l x).judgeDrain :=
    run.exec_of ((if_pos (Option.isSome_iff_ne_none.mpr timed)).trans (congrArg (s.withLine l) h))
  have acts (enabled : k.enabled = true) (level : k.level ≠ ln.toneRaw) :
      kept.toneChanged ln.toneRaw = if ln.toneRaw then kept.toneReturns else kept.toneStops :=
    if_pos (by rw [show kept.classifier = k from rfl, enabled, decide_eq_true level]; rfl)
  have returns (enabled : k.enabled = true) (off : k.level = false) (on : ln.toneRaw = true) :
      kept.toneChanged ln.toneRaw = kept.toneReturns :=
    (acts enabled (by rw [off, on]; exact Bool.noConfusion)).trans (if_pos on)
  refine ⟨fun stopped => ?_, fun timed deaf => ?_, fun timed enabled on off => ?_, fun timed enabled off on => ⟨?_, ?_⟩,
    fun enabled on new => ?_, fun enabled off whole held => ?_⟩
  · exact run.exec_of (if_neg fun runs => by rw [show (s.line l).toneQual = none from stopped] at runs; exact Bool.noConfusion runs)
  · refine qualifies timed (if_neg fun acts => ?_)
    obtain ⟨enabled, level⟩ := Bool.and_eq_true_iff.mp acts
    exact deaf.elim (fun h => Bool.noConfusion (h.symm.trans enabled)) fun same => (of_decide_eq_true level) same
  · have stops : kept.toneChanged ln.toneRaw = kept.toneStops :=
      (acts enabled (by rw [off, on]; exact Bool.noConfusion)).trans (if_neg (Bool.eq_false_iff.mp off))
    exact qualifies timed (stops.trans kept.toneStops_eq)
  · exact fun _ whole held =>
      qualifies timed ((returns enabled off on).trans (Line.toneReturns_cycle (ln := kept) whole held))
  · exact fun none' => qualifies timed ((returns enabled off on).trans (Line.toneReturns_no_cycle (ln := kept) none'))
  · exact run.exec_of (congrArg (s.withLine l) (Line.dialMark_eq enabled on new))
  · exact run.exec_of (congrArg (s.withLine l) (Line.offOverrun_eq enabled off whole held))

end Sys2Proof.Machine
end

section
/-! PROOF. A qualified loop pattern (R60, R77): what a line does with it, by its state. -/

namespace Sys2Proof.Machine

/-! ## The fault step -/

/-- A line taken to FAULT, its context ended (R77 steps 1 to 3), ahead of the LINE_FAULT report. -/
def State.faultEnd (s : State) (l : LineId) (c : CtxId) : State :=
  (((s.modLine l Line.toFault).setMeter l none).detach c .lineFault).endContext c .lineFault

section
variable {s : State} {l : LineId} {c : CtxId} (holds : s.Holds l c)
include holds

theorem State.Holds.faultLine_eq :
    s.faultLine l = { s.faultEnd l c with report := (s.faultEnd l c).afterUnsolicited (.lineFault l) } := by
  unfold State.faultLine
  dsimp only
  rw [holds.held]
  dsimp only
  rw [if_pos holds.onLine]
  exact State.queueUnsolicited_eq _ _

/-- The fault step of an off-hook line up to its report (R77). -/
theorem State.Holds.faultEnd_ends :
    s.EndsContext (s.faultEnd l c) c (some .lineFault) .lineFault
      ∧ (s.faultEnd l c).line l
        = { (s.line l).cleared with state := .fault, clearGuard := (s.line l).clearGuard, disablePending := false }
      ∧ (s.faultEnd l c).meter l = none ∧ s.OtherLines (s.faultEnd l c) l
      ∧ (s.faultEnd l c).waiting = s.waiting ∧ (s.faultEnd l c).schedule = s.schedule := by
  have moved : s.LinesOnly ((s.modLine l Line.toFault).setMeter l none) := rfl
  have onLine : (((s.modLine l Line.toFault).setMeter l none).ctx c).state = .onLine := holds.onLine
  refine ⟨moved.detach_endContext_ends holds.onLine _ _, ?_, ?_, fun k other => ⟨?_, ?_⟩,
    State.detach_endContext_waiting _ _ onLine, State.detach_endContext_schedule _ _ onLine⟩
  · refine (State.detach_endContext_line _ _ l).trans ?_
    rw [State.setMeter_line, State.modLine_line_same]
    rfl
  · exact (State.detach_endContext_meter _ _ l).trans (State.setMeter_meter_same _ _ _)
  · refine (State.detach_endContext_line _ _ k).trans ?_
    rw [State.setMeter_line, State.modLine_line_other _ _ _ _ other]
  · exact (State.detach_endContext_meter _ _ k).trans (State.setMeter_meter_other _ _ _ _ other)

end

/-! ## A pattern by the state of the line -/

section
variable {s : State} {l : LineId} {p : LoopPattern}

theorem State.qualifyPattern_of_timed (timed : (s.line l).loopQual ≠ none) :
    s.qualifyPattern l
      = (s.withLine l { s.line l with
          loopPattern := patternOf (s.line l).senseA (s.line l).senseB, loopQual := none }).patternChanged l
          (patternOf (s.line l).senseA (s.line l).senseB) := if_pos (Option.isSome_iff_ne_none.mpr timed)

theorem State.patternChanged_ignored
    (h : (s.line l).state ∈ [.idle, .clearing, .ringing, .disabled, .fault]
      ∨ (p ≠ .invalid ∧ ((s.line l).state = .dialing
        ∨ ((s.line l).state = .seize ∧ (p ≠ .normal ∨ (s.line l).dialToneWait = true))
        ∨ ((s.line l).state = .awaitAnswer ∧ p ≠ .reversed) ∨ ((s.line l).state = .answering ∧ p ≠ .normal)))) :
    s.patternChanged l p = s := by
  unfold State.patternChanged
  cases state : (s.line l).state <;> simp [state, LineState.offHook] at h ⊢
  case seize =>
    rw [if_neg h.1]
    cases (s.line l).held with
    | none => rfl
    | some c => exact if_neg fun k => h.2.elim (fun other => other k.1) fun waits => Bool.noConfusion (waits.symm.trans k.2)
  case dialing => exact fun k => absurd k h
  case awaitAnswer => rw [if_neg h.1, if_neg h.2]
  case answering => rw [if_neg h.1, if_neg h.2]

theorem State.patternChanged_invalid (offHook : (s.line l).state.offHook = true) :
    s.patternChanged l .invalid = s.faultAndSweep l := if_pos ⟨offHook, rfl⟩

theorem State.patternChanged_connected (state : (s.line l).state ∈ [LineState.connected, .connectedIn]) (valid : p ≠ .invalid) :
    s.patternChanged l p = s.modLine l fun x => { x with farClearTimer := farClearAfter p } := by
  unfold State.patternChanged
  dsimp only
  rw [if_neg fun k => valid k.2]
  rcases List.mem_pair.mp state with h | h <;> rw [h]

theorem State.patternChanged_answering (state : (s.line l).state = .answering) :
    s.patternChanged l .normal = s.connectedInEntry l := by
  unfold State.patternChanged
  simp [state]

theorem State.patternChanged_awaitAnswer (state : (s.line l).state = .awaitAnswer) :
    s.patternChanged l .reversed = s.answer l := by
  unfold State.patternChanged
  simp [state]

theorem State.patternChanged_seize {c : CtxId} (state : (s.line l).state = .seize) (held : (s.line l).held = some c)
    (noWait : (s.line l).dialToneWait = false) : s.patternChanged l .normal = s.loopWaitEnd l c := by
  unfold State.patternChanged
  simp [state, held, noWait]

end

theorem farClearAfter_eq {p : LoopPattern} (valid : p ≠ .invalid) :
    farClearAfter p = if p = .reversed then none else some 400 := by
  cases p with
  | normal | noLoop | reversed => rfl
  | invalid => exact absurd rfl valid

/-- The end of the loop wait (R62) on a line in any state. -/
theorem State.withLine_loopWaitEnd (s : State) (l : LineId) (x : Line) (c : CtxId) :
    (s.withLine l x).loopWaitEnd l c =
      if x.working.dialToneRequired then
        s.withLine l { x.listening with
          loopTimer := none, dialToneWait := true, dialToneTimer := some (x.working.seizeTimeout * 1000) }
      else (s.withLine l { x with loopTimer := none, state := .dialing, dialToneWait := false }).beginSymbol l c 1 := by
  rw [State.loopWaitEnd_eq, State.withLine_line_same, State.withLine_withLine, State.withLine_withLine]

/-- Settles O43: the effect of a qualified pattern, state by state. -/
theorem qualifiedPatternActsByLineState : Obligations.QualifiedPatternActsByLineState := by
  unfold Obligations.QualifiedPatternActsByLineState
  intro l s run p ln u
  have line : u.line l = ln := s.withLine_line_same l ln
  have state {x : LineState} (h : ln.state = x) : (u.line l).state = x := (congrArg Line.state line).trans h
  have qualifies {t : State} {q : LoopPattern} (timed : (s.line l).loopQual ≠ none) (same : p = q)
      (h : u.patternChanged l q = t) : exec (.loopPatternQualified l) s = .next t.judgeDrain :=
    run.exec_of ((State.qualifyPattern_of_timed timed).trans ((congrArg (u.patternChanged l) same).trans h))
  refine ⟨fun stopped => ?_, fun timed => ⟨fun ignored => ?_, fun connected valid => ?_, fun c holds => ?_⟩⟩
  · exact run.exec_of (if_neg fun k => by rw [stopped] at k; exact Bool.noConfusion k)
  · exact qualifies timed rfl (State.patternChanged_ignored (by rw [line]; exact ignored))
  · refine qualifies timed rfl ((State.patternChanged_connected (by rw [line]; exact connected) valid).trans ?_)
    rw [farClearAfter_eq valid]
    exact s.withLine_modLine l ln _
  · refine ⟨fun answering normal => ?_, fun seize noWait normal required => ?_, fun symbol seize noWait normal free next => ?_,
      fun invalid => ?_⟩
    · obtain ⟨connected, otherLines, meter, ctx, others, report, lists, retained, keeps⟩ :=
        State.connectedInEntry_connects holds.held
      rw [line] at connected
      exact ⟨_, qualifies timed normal (State.patternChanged_answering (state answering)), connected, otherLines, meter, ctx,
        report, others, lists, retained, keeps⟩
    · have waits := State.patternChanged_seize (state seize) holds.held (by rw [line]; exact noWait)
      exact qualifies timed normal (waits.trans ((s.withLine_loopWaitEnd l ln c).trans (if_pos required)))
    · have waits := State.patternChanged_seize (state seize) holds.held (by rw [line]; exact noWait)
      exact qualifies timed normal ((waits.trans ((s.withLine_loopWaitEnd l ln c).trans (if_neg (Bool.eq_false_iff.mp free)))).trans
        (State.withLine_beginSymbol_some (pos := 0) s l
          { ln with loopTimer := none, state := .dialing, dialToneWait := false } next))
    · have ended := holds.faultEnd_ends
      rw [line] at ended
      refine ⟨u.faultEnd l c, qualifies timed invalid ((State.patternChanged_invalid holds.offHook).trans ?_), ended⟩
      exact congrArg (fun t : State => t.sweep.pass) holds.faultLine_eq

end Sys2Proof.Machine
end

section
/-! PROOF. Metering (R130 to R134): the charge, the unit, the answer of an outbound call and a unit start. -/

namespace Sys2Proof.Machine

/-! ## Accounts -/

theorem State.modAccount_eq_withAccount (s : State) (a : AccountId) (f : Account → Account) :
    s.modAccount a f = s.withAccount a (f (s.account a)) := rfl

@[simp] theorem State.withAccount_account_same (s : State) (a : AccountId) (x : Account) : (s.withAccount a x).account a = x := by
  simp [State.withAccount, State.account, Retained.setAccounts]

theorem State.withAccount_account_other (s : State) {a b : AccountId} (x : Account) (h : b ≠ a) :
    (s.withAccount a x).account b = s.account b := by
  simp [State.withAccount, State.account, Retained.setAccounts, Fin.val_ne_of_ne h.symm]

@[simp] theorem State.withAccount_withAccount (s : State) (a : AccountId) (x y : Account) :
    (s.withAccount a x).withAccount a y = s.withAccount a y := by
  simp [State.withAccount, Retained.setAccounts]

/-! ## The charge (R130) -/

theorem Account.allows_iff {a : Account} {amount : Nat} : a.allows amount = true ↔ a.Pays amount := by
  simp [Account.allows, Account.Pays, or_assoc]

/-- The context with an applied charge (R130). -/
def Context.charged (x : Context) (amount : Nat) : Context := { x with charge := min (x.charge + amount) 4294967295 }

theorem State.charge_of_pays {s : State} {a : AccountId} {amount : Nat} (c : CtxId) (pays : (s.account a).Pays amount) :
    s.charge a c amount
      = some ((s.withAccount a ((s.account a).charged amount)).withCtx c ((s.ctx c).charged amount)) :=
  if_pos (Account.allows_iff.mpr pays)

theorem State.charge_of_refused {s : State} {a : AccountId} {amount : Nat} (c : CtxId) (refused : ¬ (s.account a).Pays amount) :
    s.charge a c amount = none := if_neg fun k => refused (Account.allows_iff.mp k)

/-! ## A unit (R131, R132, R134) -/

/-- A unit charge finds the next one beyond the limit of the account, a LIMIT_WARNING not yet given (R134). -/
def Account.warns (a : Account) (charge : Nat) (warned : Bool) : Bool :=
  a.limited && decide (a.limit < a.total + charge) && !warned

/-- The metering entry with a unit begun (R131, R132), the warning judged (R134). -/
def MeterEntry.begun (e : MeterEntry) (startsAt : Nat) (price : UnitPrice) (a : Account) : MeterEntry :=
  { e with
    unitNumber := min (e.unitNumber + 1) 65535, unitCharge := price.unitCharge, unitPeriod := price.period
    nextStart := startsAt + price.period * 1000
    warned := e.warned || (a.limited && decide (a.limit < a.total + price.unitCharge)) }

/-- The warning judgement of a metered call (R134). -/
theorem State.judgeWarning_eq (s : State) (l : LineId) (e : MeterEntry) :
    s.judgeWarning l e
      = if (s.account e.account).warns e.unitCharge e.warned then
          (s.setMeter l (some { e with warned := true })).queueProgress e.ctx l
            (.limitWarning ((s.account e.account).limit - (s.account e.account).total))
        else s := by
  have same : ((s.account e.account).limited = true
        ∧ (s.account e.account).limit < (s.account e.account).total + e.unitCharge ∧ e.warned = false)
      ↔ (s.account e.account).warns e.unitCharge e.warned = true := by simp [Account.warns, and_assoc]
  exact if_congr same rfl rfl

theorem MeterEntry.begun_eq (e : MeterEntry) (startsAt : Nat) (price : UnitPrice) (a : Account) :
    e.begun startsAt price a
      = { e with
          unitNumber := min (e.unitNumber + 1) 65535, unitCharge := price.unitCharge, unitPeriod := price.period
          nextStart := startsAt + price.period * 1000, warned := a.warns price.unitCharge e.warned || e.warned } := by
  have same : (e.warned || (a.limited && decide (a.limit < a.total + price.unitCharge)))
      = (a.warns price.unitCharge e.warned || e.warned) := by
    unfold Account.warns
    cases e.warned <;> simp
  unfold MeterEntry.begun
  rw [same]

/-- Context `c` and the metering entry of line `l` replaced together. -/
def State.withUnit (s : State) (l : LineId) (m : MeterEntry) (c : CtxId) (x : Context) : State :=
  { s.withCtx c x with meters := s.meters.set l (some m) }

theorem State.withUnit_setMeter (s : State) (l : LineId) (m n : MeterEntry) (c : CtxId) (x : Context) :
    (s.withUnit l m c x).setMeter l (some n) = s.withUnit l n c x := by
  simp [State.withUnit, State.setMeter]

theorem State.withUnit_queueProgress (s : State) (l : LineId) (m : MeterEntry) (c : CtxId) (x : Context) (kind : ProgressKind) :
    (s.withUnit l m c x).queueProgress c l kind
      = { s.withUnit l m c (x.reporting true s.progressRoom) with report := (s.withCtx c x).withProgress true c l kind } := by
  have own : (s.withUnit l m c x).ctx c = x := s.withCtx_ctx_same c x
  have twice := congrArg State.ctxs (s.withCtx_withCtx c x (x.reporting true s.progressRoom))
  rw [State.queueProgress_eq, own]
  show State.mk _ _ _ ((s.withCtx c x).withCtx c (x.reporting true s.progressRoom)).ctxs .. = _
  rw [twice]
  rfl

/-- A unit started on an entry (R131 steps 6 and 7, R132 steps 3 and 4), written out. -/
theorem State.startUnit_eq (s : State) (l : LineId) (e : MeterEntry) (startsAt : Nat) (price : UnitPrice) :
    let a := s.account e.account
    let due := a.warns price.unitCharge e.warned
    let x : Context := { s.ctx e.ctx with units := min (e.unitNumber + 1) 65535 }
    s.startUnit l e startsAt price
      = { s.withUnit l (e.begun startsAt price a) e.ctx (x.reporting due s.progressRoom) with
          report := (s.withCtx e.ctx x).withProgress due e.ctx l (.limitWarning (a.limit - a.total)) } := by
  intro a due x
  let e1 : MeterEntry :=
    { e with
      unitNumber := min (e.unitNumber + 1) 65535, unitCharge := price.unitCharge, unitPeriod := price.period
      nextStart := startsAt + price.period * 1000 }
  have judged : s.startUnit l e startsAt price
      = if due = true then
          ((s.withUnit l e1 e.ctx x).setMeter l (some { e1 with warned := true })).queueProgress e.ctx l
            (.limitWarning (a.limit - a.total))
        else s.withUnit l e1 e.ctx x := State.judgeWarning_eq (s.withUnit l e1 e.ctx x) l e1
  have begun : e.begun startsAt price a = { e1 with warned := due || e.warned } := e.begun_eq startsAt price a
  rw [judged, begun]
  cases due with
  | true =>
    rw [if_pos rfl, State.withUnit_setMeter, State.withUnit_queueProgress]
    rfl
  | false => rfl

/-- A unit started in `w`, which `s` has the report writer of, runs on its entry (R131, R132, R134). -/
theorem State.startUnit_runs {s w : State} (report : w.report = s.report) (l : LineId) (e : MeterEntry) (startsAt : Nat)
    (price : UnitPrice) :
    s.UnitRuns (w.startUnit l e startsAt price) l e startsAt price (w.account e.account) (w.ctx e.ctx) := by
  have room : w.progressRoom = s.progressRoom := by unfold State.progressRoom; rw [report]
  rw [State.startUnit_eq]
  refine ⟨?_, ?_, ?_⟩
  · exact w.setMeter_meter_same l (some (e.begun startsAt price (w.account e.account)))
  · refine (State.withCtx_ctx_same w e.ctx _).trans ?_
    rw [room]
    rfl
  · have own (x : Context) : (w.withCtx e.ctx x).ctx e.ctx = x := State.withCtx_ctx_same _ _ _
    have room' (x : Context) : (w.withCtx e.ctx x).progressRoom = s.progressRoom := room
    show State.withProgress _ _ _ _ _ = _
    unfold State.withProgress State.progressEntry
    rw [own, room', show (State.withCtx w e.ctx _).report = s.report from report,
      show ((w.ctx e.ctx).signalNow || ProgressKind.isWarning (.limitWarning _)) = true from Bool.or_true _]
    rfl

/-- What a unit start leaves alone. -/
theorem State.startUnit_leaves (w : State) (l : LineId) (e : MeterEntry) (startsAt : Nat) (price : UnitPrice) :
    (w.startUnit l e startsAt price).retained = w.retained ∧ (w.startUnit l e startsAt price).lines = w.lines
      ∧ (∀ k : LineId, k ≠ l → (w.startUnit l e startsAt price).meter k = w.meter k)
      ∧ w.OtherCtxs (w.startUnit l e startsAt price) e.ctx ∧ w.SameLists (w.startUnit l e startsAt price)
      ∧ w.Keeps (w.startUnit l e startsAt price) := by
  rw [State.startUnit_eq]
  exact ⟨rfl, rfl, fun k other => w.setMeter_meter_other l k _ other, w.withCtx_others e.ctx _, ⟨rfl, rfl, rfl⟩,
    ⟨rfl, rfl, rfl, rfl, rfl, rfl, rfl, rfl⟩⟩

/-- A unit whose charge has just been applied: `u` with the account at `paid` and the context at `y`, and with the metering
entry of the line as it may be (R131, R132). -/
theorem State.startUnit_paid {u : State} {l : LineId} {meters : Vector (Option MeterEntry) 8} {e : MeterEntry}
    (others : ∀ k : LineId, k ≠ l → meters[k] = u.meter k) (startsAt : Nat) (price : UnitPrice) (paid : Account) (y : Context) :
    let t := ((State.withAccount { u with meters := meters } e.account paid).withCtx e.ctx y).startUnit l e startsAt price
    t.account e.account = paid ∧ (∀ b : AccountId, b ≠ e.account → t.account b = u.account b)
      ∧ u.UnitRuns t l e startsAt price paid y
      ∧ t.line l = u.line l ∧ u.OtherLines t l ∧ u.OtherCtxs t e.ctx ∧ u.SameLists t ∧ u.Keeps t := by
  intro t
  have account : ((State.withAccount { u with meters := meters } e.account paid).withCtx e.ctx y).account e.account = paid :=
    State.withAccount_account_same _ _ _
  have own : ((State.withAccount { u with meters := meters } e.account paid).withCtx e.ctx y).ctx e.ctx = y :=
    State.withCtx_ctx_same _ _ _
  have runs := State.startUnit_runs (s := u)
    (w := (State.withAccount { u with meters := meters } e.account paid).withCtx e.ctx y) rfl l e startsAt price
  rw [account, own] at runs
  obtain ⟨retained, lines, meter, ctxs, lists, keeps⟩ :=
    State.startUnit_leaves ((State.withAccount { u with meters := meters } e.account paid).withCtx e.ctx y) l e startsAt price
  refine ⟨?_, fun b other => ?_, runs, State.line_congr lines l,
    fun k other => ⟨State.line_congr lines k, (meter k other).trans (others k other)⟩,
    (State.withCtx_others _ e.ctx y).trans ctxs, lists, ?_⟩
  · exact (congrArg (fun r : Retained => r.accounts[e.account]) retained).trans account
  · exact (congrArg (fun r : Retained => r.accounts[b]) retained).trans
      (State.withAccount_account_other { u with meters := meters } paid other)
  · obtain ⟨ctl, power, intake, uptime, uptimeMs, mem, seed, pending⟩ := keeps
    exact ⟨ctl, power, intake, uptime, uptimeMs, mem, seed, pending⟩

theorem CallOutcome.limitReached_no_failure {P : Prop} :
    ¬ (CallOutcome.limitReached.failureBit.isSome = true ∧ P) := fun k => Bool.noConfusion k.1

section
variable {s t : State} {l : LineId} {e : MeterEntry} (opened : s.meter l = some e)
include opened

theorem State.unitStarts_of_paid (paid : s.charge e.account e.ctx (s.priceNow e.tariff).unitCharge = some t) :
    s.unitStarts l = t.startUnit l e e.nextStart (s.priceNow e.tariff) := by
  unfold State.unitStarts
  rw [opened]
  dsimp only
  rw [paid]

theorem State.unitStarts_of_refused (refused : s.charge e.account e.ctx (s.priceNow e.tariff).unitCharge = none) :
    s.unitStarts l = s.endOnLine l .limitReached := by
  unfold State.unitStarts
  rw [opened]
  dsimp only
  rw [refused]

end

/-- Settles O52: the charge refused, or applied and the unit begun. -/
theorem unitStartChargesOrCuts : Obligations.UnitStartChargesOrCuts := by
  unfold Obligations.UnitStartChargesOrCuts
  intro l s run
  refine ⟨fun closed => ?_, ?_⟩
  · refine run.exec_of ?_
    unfold State.unitStarts
    rw [closed]
  · intro e opened holds _ price paid
    by_cases pays : (s.account e.account).Pays price.unitCharge
    · have starts := State.unitStarts_of_paid opened (State.charge_of_pays e.ctx pays)
      exact ⟨_, run.exec_of starts, fun refused => absurd pays refused, fun _ =>
        State.startUnit_paid (meters := s.meters) (fun _ _ => rfl) e.nextStart price paid
          ((s.ctx e.ctx).charged price.unitCharge)⟩
    · have cut := State.unitStarts_of_refused opened (State.charge_of_refused e.ctx pays)
      exact ⟨_, run.exec_of cut, fun _ => holds.endOnLine_endsOnLine CallOutcome.limitReached_no_failure,
        fun paysNow => absurd paysNow pays⟩

end Sys2Proof.Machine
end

section
/-! PROOF. The answer of an outbound call (R69, R131). -/

namespace Sys2Proof.Machine

/-- The state between the connection of an outbound call and its metering (R69). -/
def State.connectedOut (s : State) (l : LineId) (ln : Line) (c : CtxId) : State :=
  { s.withLine l (ln.connected .connected (s.ctx c).maxDuration) with
    ctxs := s.ctxs.set c (({ s.ctx c with stamp := some s.now } : Context).reporting (s.ctx c).progress s.progressRoom)
    report := s.withProgress (s.ctx c).progress c l .answered }

theorem State.withLine_answer (s : State) (l : LineId) {ln : Line} {c : CtxId} (held : ln.held = some c) :
    (s.withLine l ln).answer l = (s.connectedOut l ln c).meterAnswer l c := by
  have connects : (s.withLine l ln).answer l
      = (((s.withLine l (ln.connected .connected (s.ctx c).maxDuration)).withCtx c
          { s.ctx c with stamp := some s.now }).queueProgressIfAsked c l .answered).meterAnswer l c := by
    unfold State.answer
    rw [State.withLine_line_same, held]
    dsimp only
    rw [State.withLine_modLine]
    rfl
  rw [connects, State.queueProgressIfAsked_eq]
  refine congrArg (State.meterAnswer · l c) ?_
  unfold State.withProgress State.progressEntry
  rw [State.withCtx_ctx_same, State.withCtx_withCtx]
  rfl

section
variable {o : State} {a : AccountId} {y : Account} {c : CtxId} {n : Nat}

theorem State.withAccount_charge (pays : y.Pays n) :
    (o.withAccount a y).charge a c n = some ((o.withAccount a (y.charged n)).withCtx c ((o.ctx c).charged n)) := by
  rw [State.charge_of_pays c (by rw [State.withAccount_account_same]; exact pays), State.withAccount_account_same,
    State.withAccount_withAccount]
  rfl

theorem State.withAccount_charge_refused (refused : ¬ y.Pays n) : (o.withAccount a y).charge a c n = none :=
  State.charge_of_refused c (by rw [State.withAccount_account_same]; exact refused)

/-- A second charge to the same account and context. -/
theorem State.withAccount_withCtx_charge (z : Context) (pays : y.Pays n) :
    ((o.withAccount a y).withCtx c z).charge a c n = some ((o.withAccount a (y.charged n)).withCtx c (z.charged n)) := by
  refine (State.withAccount_charge (o := o.withCtx c z) pays).trans ?_
  rw [State.withCtx_ctx_same]
  exact congrArg some ((o.withAccount a (y.charged n)).withCtx_withCtx c z (z.charged n))

theorem State.withAccount_withCtx_charge_refused (z : Context) (refused : ¬ y.Pays n) :
    ((o.withAccount a y).withCtx c z).charge a c n = none :=
  State.withAccount_charge_refused (o := o.withCtx c z) refused

end

/-- The metering of an answer (R131) on account `a`: the call cut at the charge that is refused, or its first unit begun. -/
theorem State.meterAnswer_eq {u : State} {l : LineId} {c : CtxId} {a : AccountId} (account : (u.ctx c).account = some a) :
    let price := u.priceNow (u.ctx c).tariff
    let e : MeterEntry :=
      { ctx := c, account := a, tariff := (u.ctx c).tariff, unitNumber := 0, unitPeriod := price.period
        unitCharge := price.unitCharge, nextStart := (u.line l).msTimer, warned := false }
    let opened : State := { u with meters := u.meters.set l (some e) }
    let acct := { u.account a with active := (u.account a).active + 1 }
    let paid := acct.charged price.setupCharge
    (¬ acct.Pays price.setupCharge → u.meterAnswer l c = (opened.withAccount a acct).endOnLine l .limitReached)
      ∧ (acct.Pays price.setupCharge → ¬ paid.Pays price.unitCharge →
        u.meterAnswer l c
          = ((opened.withAccount a paid).withCtx c ((u.ctx c).charged price.setupCharge)).endOnLine l .limitReached)
      ∧ (acct.Pays price.setupCharge → paid.Pays price.unitCharge →
        u.meterAnswer l c
          = ((opened.withAccount a (paid.charged price.unitCharge)).withCtx c
              (((u.ctx c).charged price.setupCharge).charged price.unitCharge)).startUnit l e (u.line l).msTimer price) := by
  intro price e opened acct paid
  have metered : u.meterAnswer l c = match (opened.withAccount a acct).charge a c price.setupCharge with
      | none => (opened.withAccount a acct).endOnLine l .limitReached
      | some s2 => match s2.charge a c price.unitCharge with
        | none => s2.endOnLine l .limitReached
        | some s3 => s3.startUnit l e (u.line l).msTimer price := by
    unfold State.meterAnswer
    rw [account]
    rfl
  refine ⟨fun refused => ?_, fun pays refused => ?_, fun pays paysUnit => ?_⟩
  · rw [metered, State.withAccount_charge_refused refused]
  · rw [metered, State.withAccount_charge pays]
    dsimp only
    rw [State.withAccount_withCtx_charge_refused _ refused]
    rfl
  · rw [metered, State.withAccount_charge pays]
    dsimp only
    rw [State.withAccount_withCtx_charge _ paysUnit]
    rfl

/-- Settles O44: the connection, then the two charges in their order. -/
theorem answerIsMetered : Obligations.AnswerIsMetered := by
  unfold Obligations.AnswerIsMetered
  intro l c a s run holds awaits timed reversed account price x u acct e opened
  let ln : Line := { s.line l with loopPattern := .reversed, loopQual := none }
  have line : (s.withLine l ln).line l = ln := s.withLine_line_same l ln
  have written : u = s.connectedOut l ln c := rfl
  have answers : s.qualifyPattern l = u.meterAnswer l c := by
    rw [State.qualifyPattern_of_timed timed, reversed,
      State.patternChanged_awaitAnswer (s := s.withLine l ln) (by rw [line]; exact awaits)]
    exact s.withLine_answer l holds.held
  have own : u.ctx c = x := State.withCtx_ctx_same s c x
  have uline : u.line l = ln.connected .connected (s.ctx c).maxDuration := s.withLine_line_same l _
  obtain ⟨first, second, both⟩ := State.meterAnswer_eq (u := u) (l := l) (c := c) (a := a) (by rw [own]; exact account)
  rw [own, uline] at first second both
  have cuts (v : State) (lines : v.line l = u.line l) (state : (v.ctx c).state = x.state)
      (current : (v.ctx c).currentLine = x.currentLine) :
      v.EndsOnLine (v.endOnLine l .limitReached) l c .limitReached .limitReached := by
    have holds' : v.Holds l c :=
      { held := (congrArg Line.held (lines.trans uline)).trans holds.held
        onLine := state.trans holds.onLine
        current := current.trans holds.current
        offHook := by rw [lines, uline]; rfl }
    exact holds'.endOnLine_endsOnLine CallOutcome.limitReached_no_failure
  have charged (y : Account) (z : Context) : ((opened.withAccount a y).withCtx c z).ctx c = z := State.withCtx_ctx_same _ _ _
  by_cases pays : acct.Pays price.setupCharge
  · by_cases paysUnit : (acct.charged price.setupCharge).Pays price.unitCharge
    · refine ⟨_, run.exec_of (answers.trans (both pays paysUnit)), fun k => absurd pays k, fun _ k => absurd paysUnit k,
        fun _ _ => State.startUnit_paid (u := u) (e := e) (fun k other => ?_) _ price
          ((acct.charged price.setupCharge).charged price.unitCharge)
          ((x.charged price.setupCharge).charged price.unitCharge)⟩
      exact s.setMeter_meter_other l k (some e) other
    · exact ⟨_, run.exec_of (answers.trans (second pays paysUnit)), fun k => absurd pays k,
        fun _ _ => cuts ((opened.withAccount a (acct.charged price.setupCharge)).withCtx c (x.charged price.setupCharge)) rfl
          ((congrArg Context.state (charged _ _)).trans rfl) ((congrArg Context.currentLine (charged _ _)).trans rfl), fun _ k => absurd k paysUnit⟩
  · exact ⟨_, run.exec_of (answers.trans (first pays)), fun _ => cuts (opened.withAccount a acct) rfl
      (congrArg Context.state own) (congrArg Context.currentLine own), fun k => absurd k pays, fun k => absurd k pays⟩

end Sys2Proof.Machine
end

section
/-! PROOF. Admission, the grant and the entry to SEIZE (R49, R50, R61, R62, R77). -/

namespace Sys2Proof.Machine

/-! ## Admission (R49) -/

section
variable {s : State} {c : CtxId} {a : AccountId} (account : (s.ctx c).account = some a)
include account

theorem State.admissionRefusal_eq :
    s.admissionRefusal c
      = if (s.account a).suspended then some .accountSuspended
        else if (s.account a).limited ∧ (s.account a).limit ≤ (s.account a).total then some .limitReached else none := by
  unfold State.admissionRefusal
  rw [account]

theorem State.admissionRefusal_of_suspended (suspended : (s.account a).suspended = true) :
    s.admissionRefusal c = some .accountSuspended := (State.admissionRefusal_eq account).trans (if_pos suspended)

theorem State.admissionRefusal_of_full (active : (s.account a).suspended = false) (limited : (s.account a).limited = true)
    (full : (s.account a).limit ≤ (s.account a).total) : s.admissionRefusal c = some .limitReached :=
  (State.admissionRefusal_eq account).trans ((if_neg (Bool.eq_false_iff.mp active)).trans (if_pos ⟨limited, full⟩))

theorem State.admissionRefusal_of_open (active : (s.account a).suspended = false)
    (room : (s.account a).limited = false ∨ (s.account a).total < (s.account a).limit) : s.admissionRefusal c = none := by
  refine (State.admissionRefusal_eq account).trans ((if_neg (Bool.eq_false_iff.mp active)).trans (if_neg fun full => ?_))
  exact room.elim (fun free => Bool.noConfusion (free.symm.trans full.1)) fun below => absurd full.2 (Nat.not_le.mpr below)

end

/-! ## The grant (R50) -/

theorem State.grant_eq (s : State) (c : CtxId) (l : LineId) :
    s.grant c l
      = { s with
          waiting := s.waiting.remove c
          freeLines := s.freeLines.filter fun k => decide (k ≠ l)
          ctxs := s.ctxs.set c (((s.ctx c).granted l).reporting (s.ctx c).progress s.progressRoom)
          lines := s.lines.set l ((s.line l).toSeize c)
          report := if (s.ctx c).progress && s.progressRoom then
              s.report.append [s.progressEntry c l .attemptStart ((s.ctx c).attempts + 1)]
            else s.report } := by
  let v : State := (((s.setWaiting (s.waiting.remove c)).leaveFree l).withCtx c ((s.ctx c).granted l)).modLine l (·.toSeize c)
  have own : v.ctx c = (s.ctx c).granted l := State.withCtx_ctx_same ((s.setWaiting (s.waiting.remove c)).leaveFree l) c _
  have written : s.grant c l = v.queueProgressIfAsked c l .attemptStart := rfl
  rw [written, State.queueProgressIfAsked_eq]
  unfold State.withProgress State.progressEntry
  rw [own]
  show State.mk _ _ _ ((s.withCtx c ((s.ctx c).granted l)).withCtx c _).ctxs .. = _
  rw [State.withCtx_withCtx]
  rfl

theorem State.grant_ctx_same (s : State) (c : CtxId) (l : LineId) :
    (s.grant c l).ctx c = ((s.ctx c).granted l).reporting (s.ctx c).progress s.progressRoom := by
  rw [State.grant_eq]; exact s.withCtx_ctx_same c _

/-- Behind a grant the line is held by the context (R50, R56). -/
theorem State.grant_holds (s : State) (c : CtxId) (l : LineId) : (s.grant c l).Holds l c where
  held := by rw [State.grant_line]; rfl
  onLine := by rw [State.grant_ctx_same]; rfl
  current := by rw [State.grant_ctx_same]; rfl
  offHook := by rw [State.grant_line]; rfl

/-! ## The entry to SEIZE (R61) -/

section
variable {s : State} {l : LineId} {c : CtxId}

theorem State.seizeEntry_of_normal (h : (s.line l).loopPattern = .normal) : s.seizeEntry l c = (s.loopWaitEnd l c, false) := by
  unfold State.seizeEntry; rw [h]

theorem State.seizeEntry_of_invalid (h : (s.line l).loopPattern = .invalid) : s.seizeEntry l c = (s.faultLine l, true) := by
  unfold State.seizeEntry; rw [h]

theorem State.seizeEntry_of_waiting (h : (s.line l).loopPattern ∈ [.noLoop, .reversed]) : s.seizeEntry l c = (s, false) := by
  unfold State.seizeEntry
  rcases List.mem_pair.mp h with h | h <;> rw [h]

theorem State.seizeEntry_lost : (s.seizeEntry l c).2 = true ↔ (s.line l).loopPattern = .invalid := by
  unfold State.seizeEntry
  cases (s.line l).loopPattern <;> simp

end

/-- Settles O59: the admission, the grant field by field, the entry to SEIZE by the loop pattern. -/
theorem grantSeizesTheLine : Obligations.GrantSeizesTheLine := by
  unfold Obligations.GrantSeizesTheLine
  intro s c l a account
  refine ⟨State.admissionRefusal_of_suspended account, State.admissionRefusal_of_full account,
    State.admissionRefusal_of_open account, s.grant_waiting c l, ?_, s.grant_line c l, fun k other => ⟨?_, ?_⟩, ?_,
    s.grant_others c l, s.grant_ctx_same c l, ?_, ?_, s.grant_schedule c l, s.grant_keeps c l, ?_⟩
  · rw [State.grant_eq]
  · rw [State.grant_eq]; exact s.modLine_line_other l k (fun _ => (s.line l).toSeize c) other
  · rw [State.grant_eq]; rfl
  · rw [State.grant_eq]; rfl
  · rw [State.grant_eq]
  · rw [State.grant_eq]
  · intro g ln
    have symbols : (g.ctx c).symbols = (s.ctx c).symbols := (congrArg Context.symbols (s.grant_ctx_same c l)).trans rfl
    refine ⟨fun waits => ?_, fun normal required => ?_, fun symbol normal free next => ?_, ?_, fun invalid => ?_⟩
    · exact congrArg Prod.fst (State.seizeEntry_of_waiting waits)
    · exact (congrArg Prod.fst (State.seizeEntry_of_normal normal)).trans ((g.loopWaitEnd_eq l c).trans (if_pos required))
    · refine (congrArg Prod.fst (State.seizeEntry_of_normal normal)).trans
        ((g.loopWaitEnd_eq l c).trans ((if_neg (Bool.eq_false_iff.mp free)).trans ?_))
      exact State.withLine_beginSymbol_some (pos := 0) g l
        { ln with loopTimer := none, state := .dialing, dialToneWait := false } (by rw [symbols]; exact next)
    · exact State.seizeEntry_lost
    · refine ⟨g.faultEnd l c, (congrArg Prod.fst (State.seizeEntry_of_invalid invalid)).trans ?_,
        (s.grant_holds c l).faultEnd_ends⟩
      exact (s.grant_holds c l).faultLine_eq

end Sys2Proof.Machine
end

section
/-! PROOF. Contexts ended one behind the other (R21, R52): what a whole run of ending steps leaves. -/

namespace Sys2Proof.Machine

/-- The contexts of a list ended in its order. -/
def State.endAll (s : State) (cs : List CtxId) (o : CallOutcome) : State := cs.foldl (fun u c => u.endContext c o) s

@[simp] theorem State.endAll_nil (s : State) (o : CallOutcome) : s.endAll [] o = s := rfl

@[simp] theorem State.endAll_cons (s : State) (c : CtxId) (cs : List CtxId) (o : CallOutcome) :
    s.endAll (c :: cs) o = (s.endContext c o).endAll cs o := rfl

/-- A run that ends each context of a list that a condition picks when its turn comes, where ending one does not change the
condition of another: it ends those that the condition picks at the start. -/
theorem State.foldl_ending {pick : State → CtxId → Bool} {inv : State → CtxId → Prop} {o : CallOutcome}
    (stable : ∀ (u : State) (c d : CtxId), inv u c → d ≠ c → inv u d →
      inv (u.endContext c o) d ∧ pick (u.endContext c o) d = pick u d) :
    ∀ (cs : List CtxId) (s : State), cs.Nodup → (∀ c ∈ cs, inv s c) →
      cs.foldl (fun u c => if pick u c then u.endContext c o else u) s = s.endAll (cs.filter (pick s)) o := by
  intro cs
  induction cs with
  | nil => exact fun _ _ _ => rfl
  | cons c cs ih =>
    intro s nodup holds
    obtain ⟨fresh, nodup⟩ := List.nodup_cons.mp nodup
    have own := holds c List.mem_cons_self
    have later : ∀ d ∈ cs, inv s d := fun d mem => holds d (List.mem_cons_of_mem _ mem)
    have apart : ∀ d ∈ cs, d ≠ c := fun d mem e => fresh (e ▸ mem)
    rw [List.foldl_cons]
    by_cases picked : pick s c = true
    · have same : cs.filter (pick (s.endContext c o)) = cs.filter (pick s) :=
        List.filter_congr fun d mem => (stable s c d own (apart d mem) (later d mem)).2
      rw [if_pos picked, ih _ nodup fun d mem => (stable s c d own (apart d mem) (later d mem)).1, same,
        List.filter_cons_of_pos picked, State.endAll_cons]
    · rw [if_neg picked, ih s nodup later, List.filter_cons_of_neg picked]

/-! ## Contexts and report writer -/

section
variable (o : CallOutcome)

theorem State.endAll_ctx {cs : List CtxId} (nodup : cs.Nodup) (s : State) (d : CtxId) :
    (s.endAll cs o).ctx d = if d ∈ cs then (s.ctx d).afterEnd o else s.ctx d := by
  induction cs generalizing s with
  | nil => simp
  | cons c cs ih =>
    obtain ⟨fresh, nodup⟩ := List.nodup_cons.mp nodup
    rw [State.endAll_cons, ih nodup]
    by_cases same : d = c
    · subst same
      rw [if_neg fresh, if_pos List.mem_cons_self, State.endContext_ctx_same]
    · rw [s.endContext_others c o d same]
      exact if_congr (by simp [same]) rfl rfl

/-- What the ending step leaves of the context that ended, beside its state and record. -/
theorem State.endContext_ctx_kept (s : State) (c d : CtxId) :
    ((s.endContext c o).ctx d).signalNow = (s.ctx d).signalNow ∧ ((s.endContext c o).ctx d).direction = (s.ctx d).direction
      ∧ ((s.endContext c o).ctx d).stamp = (s.ctx d).stamp ∧ ((s.endContext c o).ctx d).account = (s.ctx d).account := by
  rw [State.endContext_ctx]
  split
  · rename_i same; subst same; exact ⟨rfl, rfl, rfl, rfl⟩
  · exact ⟨rfl, rfl, rfl, rfl⟩

theorem ReportWriter.append_append (r : ReportWriter) (es fs : List OutboxEntry) :
    (r.append es).append fs = r.append (es ++ fs) := by
  simp [ReportWriter.append]

/-- The reference to an ended context (R11, R20). -/
def State.endRef (s : State) (c : CtxId) : OutboxEntry := { body := .callEnd c, urgent := (s.ctx c).signalNow }

theorem State.endAll_report (cs : List CtxId) (s : State) : (s.endAll cs o).report = s.report.append (cs.map s.endRef) := by
  induction cs generalizing s with
  | nil => simp [ReportWriter.append]
  | cons c cs ih =>
    have refs : (s.endContext c o).endRef = s.endRef := by
      funext d; unfold State.endRef; rw [(s.endContext_ctx_kept o c d).1]
    rw [State.endAll_cons, ih, refs, List.map_cons]
    exact (congrArg (ReportWriter.append · _) (s.endContext_report c o)).trans (ReportWriter.append_append _ _ _)

/-! ## The retained domain -/

/-- The end of context `c` counts on account `a` (R136). -/
def State.counts (s : State) (a : AccountId) (c : CtxId) : Bool :=
  decide ((s.ctx c).direction = .outbound) && (s.ctx c).stamp.isSome && decide ((s.ctx c).account = some a)

theorem Account.afterEnds_zero (x : Account) : x.afterEnds 0 = x := by simp [Account.afterEnds]

theorem Account.callEnded_afterEnds (x : Account) (k : Nat) : x.callEnded.afterEnds k = x.afterEnds (k + 1) := by
  have completed : x.completed + 1 + BitVec.ofNat 16 k = x.completed + BitVec.ofNat 16 (k + 1) := by
    rw [BitVec.ofNat_add]; bv_omega
  have active : x.active - 1 - k = x.active - (k + 1) := by omega
  unfold Account.callEnded Account.afterEnds
  rw [← completed, ← active]

theorem State.endContext_account (s : State) (c : CtxId) (a : AccountId) :
    (s.endContext c o).account a = if s.counts a c then (s.account a).callEnded else s.account a := by
  unfold State.account
  rw [State.endContext_retained]
  unfold State.afterEndRetained State.counts
  by_cases answered : (s.ctx c).direction = .outbound ∧ (s.ctx c).stamp.isSome = true
  · rw [if_pos answered, decide_eq_true answered.1, answered.2]
    cases account : (s.ctx c).account with
    | none => simp
    | some b =>
      by_cases same : b = a
      · subst same; simp [Retained.modAccount, Retained.setAccounts]
      · have apart : a ≠ b := fun k => same k.symm
        simp [Retained.modAccount, Retained.setAccounts, same, Fin.val_ne_of_ne same]
  · rw [if_neg answered]
    refine (if_neg fun k => answered ?_).symm
    simp only [Bool.and_eq_true, decide_eq_true_eq] at k
    exact k.1

theorem State.endAll_account (cs : List CtxId) (s : State) (a : AccountId) :
    (s.endAll cs o).account a = (s.account a).afterEnds (cs.countP (s.counts a)) := by
  induction cs generalizing s with
  | nil => exact (Account.afterEnds_zero _).symm
  | cons c cs ih =>
    have same : (s.endContext c o).counts a = s.counts a := by
      funext d
      obtain ⟨-, direction, stamp, account⟩ := s.endContext_ctx_kept o c d
      unfold State.counts; rw [direction, stamp, account]
    rw [State.endAll_cons, ih, same, State.endContext_account]
    by_cases counted : s.counts a c = true
    · rw [if_pos counted, List.countP_cons_of_pos counted, Account.callEnded_afterEnds]
    · rw [if_neg counted, List.countP_cons_of_neg counted]

theorem State.endAll_retained_of_unanswered {cs : List CtxId} {s : State} (unanswered : ∀ c ∈ cs, (s.ctx c).stamp = none) :
    (s.endAll cs o).retained = s.retained := by
  induction cs generalizing s with
  | nil => rfl
  | cons c cs ih =>
    have own : (s.endContext c o).retained = s.retained := by
      rw [State.endContext_retained]
      exact if_neg fun k => by rw [unanswered c List.mem_cons_self] at k; exact Bool.noConfusion k.2
    rw [State.endAll_cons, ih fun d mem => ?_, own]
    rw [(s.endContext_ctx_kept o c d).2.2.1]
    exact unanswered d (List.mem_cons_of_mem _ mem)

/-! ## Lists and lines -/

/-- A context of the list waits in the given state. -/
def State.leaves (s : State) (cs : List CtxId) (state : CtxState) (d : CtxId) : Bool :=
  decide (d ∈ cs) && decide ((s.ctx d).state = state)

/-- One ending step and the rest of the run, on one list. -/
theorem State.filter_leaves_cons (s : State) {c : CtxId} {cs : List CtxId} (fresh : c ∉ cs) (state : CtxState)
    (q : List CtxId) :
    (if (s.ctx c).state = state then q.filter (fun d => decide (d ≠ c)) else q).filter
        (fun d => !(s.endContext c o).leaves cs state d)
      = q.filter fun d => !s.leaves (c :: cs) state d := by
  have other (d : CtxId) (apart : d ≠ c) : (s.endContext c o).leaves cs state d = s.leaves (c :: cs) state d := by
    unfold State.leaves
    rw [s.endContext_others c o d apart]
    simp [apart]
  have own : (s.endContext c o).leaves cs state c = false := by simp [State.leaves, fresh]
  have first : s.leaves (c :: cs) state c = decide ((s.ctx c).state = state) := by simp [State.leaves]
  by_cases here : (s.ctx c).state = state
  · rw [if_pos here, List.filter_filter]
    refine List.filter_congr fun d _ => ?_
    by_cases same : d = c
    · subst same; simp [first, here]
    · simp [other d same, same]
  · rw [if_neg here]
    refine List.filter_congr fun d _ => ?_
    by_cases same : d = c
    · subst same; rw [own, first, decide_eq_false here]
    · rw [other d same]

theorem Waiting.remove_eq (w : Waiting) (s : State) (c : CtxId) :
    (if (s.ctx c).state = .pending then w.remove c else w)
      = { urgent := if (s.ctx c).state = .pending then w.urgent.filter (fun d => decide (d ≠ c)) else w.urgent
          routine := if (s.ctx c).state = .pending then w.routine.filter (fun d => decide (d ≠ c)) else w.routine } := by
  split <;> rfl

/-- The waiting list behind the run: what ended from it has left it. -/
theorem State.endAll_waiting {cs : List CtxId} (nodup : cs.Nodup) (s : State) :
    (s.endAll cs o).waiting
      = { urgent := s.waiting.urgent.filter fun d => !s.leaves cs .pending d
          routine := s.waiting.routine.filter fun d => !s.leaves cs .pending d } := by
  induction cs generalizing s with
  | nil => simp [State.leaves]
  | cons c cs ih =>
    obtain ⟨fresh, nodup⟩ := List.nodup_cons.mp nodup
    rw [State.endAll_cons, ih nodup, State.endContext_waiting, Waiting.remove_eq]
    dsimp only
    rw [State.filter_leaves_cons o s fresh, State.filter_leaves_cons o s fresh]

/-- The schedule behind the run. -/
theorem State.endAll_schedule {cs : List CtxId} (nodup : cs.Nodup) (s : State) :
    (s.endAll cs o).schedule = s.schedule.filter fun d => !s.leaves cs .retryWait d := by
  induction cs generalizing s with
  | nil => simp [State.leaves]
  | cons c cs ih =>
    obtain ⟨fresh, nodup⟩ := List.nodup_cons.mp nodup
    rw [State.endAll_cons, ih nodup, State.endContext_schedule, State.filter_leaves_cons o s fresh]

/-- A line that no context of the list leaves stays (R74). -/
theorem State.endAll_line_stays {cs : List CtxId} {s : State} {l : LineId}
    (stays : (s.line l).state.offHook = false ∨ ∀ c ∈ cs, (s.ctx c).lineLeft ≠ some l) :
    (s.endAll cs o).line l = s.line l ∧ (s.endAll cs o).meter l = s.meter l := by
  induction cs generalizing s with
  | nil => exact ⟨rfl, rfl⟩
  | cons c cs ih =>
    have away : ¬ ((s.ctx c).lineLeft = some l ∧ (s.line l).state.offHook = true) := fun k =>
      stays.elim (fun off => Bool.noConfusion (off.symm.trans k.2)) fun left => left c List.mem_cons_self k.1
    have line : (s.endContext c o).line l = s.line l := by rw [State.endContext_line, if_neg away]
    have meter : (s.endContext c o).meter l = s.meter l := by rw [State.endContext_meter, if_neg away]
    obtain ⟨lines, meters⟩ := ih (s := s.endContext c o) (by
      rw [line]
      refine stays.imp id fun left d mem => ?_
      rw [State.endContext_ctx]
      split
      · rename_i same
        intro k
        simp [Context.afterEnd, Context.lineLeft] at k
      · exact left d (List.mem_cons_of_mem _ mem))
    exact ⟨lines.trans line, meters.trans meter⟩

/-- A line that an ON_LINE context of the list is on clears (R74). -/
theorem State.endAll_line_clears {cs : List CtxId} (nodup : cs.Nodup) {s : State} {l : LineId} {c : CtxId} (mem : c ∈ cs)
    (left : (s.ctx c).lineLeft = some l) (offHook : (s.line l).state.offHook = true) :
    (s.endAll cs o).line l = (s.line l).cleared ∧ (s.endAll cs o).meter l = none := by
  induction cs generalizing s with
  | nil => exact absurd mem List.not_mem_nil
  | cons d cs ih =>
    obtain ⟨fresh, nodup⟩ := List.nodup_cons.mp nodup
    rw [State.endAll_cons]
    by_cases here : (s.ctx d).lineLeft = some l
    · have line : (s.endContext d o).line l = (s.line l).cleared := by
        rw [State.endContext_line, if_pos ⟨here, offHook⟩, Line.toClearing_eq_cleared]
      have meter : (s.endContext d o).meter l = none := by rw [State.endContext_meter, if_pos ⟨here, offHook⟩]
      obtain ⟨lines, meters⟩ := State.endAll_line_stays o (s := s.endContext d o) (cs := cs) (.inl (by rw [line]; rfl))
      exact ⟨lines.trans line, meters.trans meter⟩
    · have away : ¬ ((s.ctx d).lineLeft = some l ∧ (s.line l).state.offHook = true) := fun k => here k.1
      have apart : c ≠ d := fun same => here (same ▸ left)
      have line : (s.endContext d o).line l = s.line l := by rw [State.endContext_line, if_neg away]
      have later := ih nodup (s := s.endContext d o) (List.mem_of_ne_of_mem apart mem)
        (by rw [s.endContext_others d o c apart]; exact left) (by rw [line]; exact offHook)
      rwa [line] at later

/-- Only the account table of the retained domain differs, with its check word. -/
def Retained.AccountsOnly (r u : Retained) : Prop := u = { r with accounts := u.accounts, accountCheck := u.accountCheck }

theorem Retained.AccountsOnly.trans {r u v : Retained} (h : r.AccountsOnly u) (k : u.AccountsOnly v) : r.AccountsOnly v := by
  unfold Retained.AccountsOnly at h k ⊢
  rw [k, h]

theorem State.endContext_accountsOnly (s : State) (c : CtxId) : s.retained.AccountsOnly (s.endContext c o).retained := by
  rw [State.endContext_retained]
  unfold State.afterEndRetained
  split
  · split <;> rfl
  · rfl

/-- What a run of ending steps leaves alone: all but contexts, lists, report writer, lines, meters and accounts. -/
structure State.EndsOnly (s t : State) : Prop where
  keeps : s.Keeps t
  freeLines : t.freeLines = s.freeLines
  retained : s.retained.AccountsOnly t.retained

theorem State.endAll_endsOnly (cs : List CtxId) (s : State) : s.EndsOnly (s.endAll cs o) := by
  induction cs generalizing s with
  | nil => exact ⟨⟨rfl, rfl, rfl, rfl, rfl, rfl, rfl, rfl⟩, rfl, rfl⟩
  | cons c cs ih =>
    obtain ⟨keeps, free, retained⟩ := ih (s.endContext c o)
    exact ⟨(s.endContext_keeps c o).trans keeps, free.trans (s.endContext_freeLines c o),
      (s.endContext_accountsOnly o c).trans retained⟩

theorem State.EndsOnly.eq {s t : State} (h : s.EndsOnly t) :
    t = { s with
      ctxs := t.ctxs, waiting := t.waiting, schedule := t.schedule, report := t.report, lines := t.lines, meters := t.meters
      retained := { s.retained with accounts := t.retained.accounts, accountCheck := t.retained.accountCheck } } := by
  obtain ⟨⟨ctl, power, intake, uptime, uptimeMs, mem, seed, pending⟩, freeLines, retained⟩ := h
  unfold Retained.AccountsOnly at retained
  rw [← retained, ← ctl, ← power, ← intake, ← uptime, ← uptimeMs, ← mem, ← seed, ← pending, ← freeLines]

end

end Sys2Proof.Machine
end

section
/-! PROOF. QUIESCE and ABORT (R21, R161, R162). -/

namespace Sys2Proof.Machine

/-! ## Each context of a kind ended -/

/-- The contexts of a kind in ascending number (R21). -/
def State.ofKind (s : State) (which : CtxState → Bool) : List CtxId := allContexts.filter fun c => which (s.ctx c).state

theorem State.mem_ofKind {s : State} {which : CtxState → Bool} {c : CtxId} :
    c ∈ s.ofKind which ↔ which (s.ctx c).state = true := by
  simp [State.ofKind, mem_allContexts]

theorem State.ofKind_nodup (s : State) (which : CtxState → Bool) : (s.ofKind which).Nodup := (List.nodup_finRange 48).filter _

theorem State.endEach_eq (s : State) (which : CtxState → Bool) (o : CallOutcome) :
    s.endEach which o = s.endAll (s.ofKind which) o :=
  State.foldl_ending (pick := fun u c => which (u.ctx c).state) (inv := fun _ _ => True)
    (fun u c d _ apart _ => ⟨trivial, by rw [u.endContext_others c o d apart]⟩) allContexts s (List.nodup_finRange 48)
    fun _ _ => trivial

section
variable {s : State} {which : CtxState → Bool} (o : CallOutcome)

theorem State.endEach_ctx (c : CtxId) :
    (s.endEach which o).ctx c = if which (s.ctx c).state then (s.ctx c).afterEnd o else s.ctx c := by
  rw [State.endEach_eq, State.endAll_ctx o (s.ofKind_nodup which)]
  exact if_congr State.mem_ofKind rfl rfl

theorem State.endEach_report : (s.endEach which o).report = s.report.append (s.endRefs which) := by
  rw [State.endEach_eq, State.endAll_report]
  rfl

theorem State.endEach_account (a : AccountId) :
    (s.endEach which o).account a = (s.account a).afterEnds (s.booked which a) := by
  rw [State.endEach_eq, State.endAll_account, State.booked, State.ofKind, List.countP_filter]
  refine congrArg _ (List.countP_congr fun c _ => ?_)
  simp only [State.counts, Bool.and_eq_true]
  exact and_comm.trans ⟨fun ⟨kind, ⟨out, answered⟩, own⟩ => ⟨⟨⟨kind, out⟩, answered⟩, own⟩,
    fun ⟨⟨⟨kind, out⟩, answered⟩, own⟩ => ⟨kind, ⟨out, answered⟩, own⟩⟩

/-- A kind that takes in every waiting context empties both lists (R21). -/
theorem State.endEach_lists (lists : s.ListsExact) (pending : which .pending = true) (retrying : which .retryWait = true) :
    (s.endEach which o).waiting = { urgent := [], routine := [] } ∧ (s.endEach which o).schedule = [] := by
  obtain ⟨⟨-, -, urgent, routine⟩, -, schedule, -⟩ := lists
  have leaves {state : CtxState} (kind : which state = true) {c : CtxId} (h : (s.ctx c).state = state) :
      s.leaves (s.ofKind which) state c = true := by
    unfold State.leaves
    rw [decide_eq_true h, decide_eq_true (State.mem_ofKind.mpr (by rw [h]; exact kind))]
    rfl
  rw [State.endEach_eq, State.endAll_waiting o (s.ofKind_nodup which), State.endAll_schedule o (s.ofKind_nodup which)]
  refine ⟨?_, ?_⟩
  · rw [List.filter_eq_nil_iff.mpr fun c mem => ?_, List.filter_eq_nil_iff.mpr fun c mem => ?_]
    · simp [leaves pending ((routine c).mp mem).1]
    · simp [leaves pending ((urgent c).mp mem).1]
  · refine List.filter_eq_nil_iff.mpr fun c mem => ?_
    simp [leaves retrying ((schedule c).mp mem)]

end

theorem State.lines_eq {s t : State} (h : ∀ l, t.line l = s.line l) : t.lines = s.lines :=
  Vector.ext fun i less => h ⟨i, less⟩

theorem State.meters_eq {s t : State} (h : ∀ l, t.meter l = s.meter l) : t.meters = s.meters :=
  Vector.ext fun i less => h ⟨i, less⟩

/-! ## The judgement behind them -/

/-- The engine judged to be READY or left as it is (R161, R162): nothing else changes. -/
structure State.Judged (v t : State) (final : Prop) : Prop where
  rest : t = { v with ctl := t.ctl, power := { v.power with roseSinceReady := t.power.roseSinceReady } }
  ready : final → t.ctl = { v.ctl with engine := .ready }
  stays : ¬ final → t.ctl = v.ctl

theorem State.enterReady_judged {v : State} {final : Prop} (h : final) : v.Judged v.enterReady final :=
  ⟨rfl, fun _ => rfl, absurd h⟩

theorem State.self_judged {v : State} {final : Prop} (h : ¬ final) : v.Judged v final := ⟨rfl, fun k => absurd k h, fun _ => rfl⟩

theorem State.judgeDrain_judged {v : State} (draining : v.ctl.engine = .draining) : v.Judged v.judgeDrain (v.drained = true) := by
  unfold State.judgeDrain
  by_cases drained : v.drained = true
  · rw [if_pos ⟨draining, drained⟩]; exact State.enterReady_judged drained
  · rw [if_neg fun k => drained k.2]; exact State.self_judged drained

theorem State.judgeAbort_judged {v : State} (aborting : v.ctl.engine = .aborting) :
    v.Judged v.judgeAbort (v.report.outbox = []) := by
  unfold State.judgeAbort
  by_cases empty : v.report.outbox = []
  · rw [if_pos ⟨aborting, List.isEmpty_iff.mpr empty⟩]; exact State.enterReady_judged empty
  · rw [if_neg fun k => empty (List.isEmpty_iff.mp k.2)]; exact State.self_judged empty

/-- The run of ending steps that an engine command makes, with the new engine state. -/
def State.commanded (s : State) (engine : EngineState) (which : CtxState → Bool) (o : CallOutcome) : State :=
  (s.modCtl fun k => { k with engine := engine, error := .none }).endEach which o

section
variable {s : State} {engine : EngineState} {which : CtxState → Bool} {o : CallOutcome}

theorem State.commanded_endsOnly :
    (s.modCtl fun k => { k with engine := engine, error := .none }).EndsOnly (s.commanded engine which o) := by
  unfold State.commanded
  rw [State.endEach_eq]
  exact State.endAll_endsOnly o _ _

/-- What the judgement leaves of a commanded run. -/
theorem State.Judged.commanded_rest {t : State} {final : Prop} (h : (s.commanded engine which o).Judged t final) :
    t = { s with
      ctl := t.ctl, ctxs := t.ctxs, waiting := t.waiting, schedule := t.schedule, report := t.report
      lines := t.lines, meters := t.meters
      retained := { s.retained with accounts := t.retained.accounts, accountCheck := t.retained.accountCheck }
      power := { s.power with roseSinceReady := t.power.roseSinceReady } } := by
  obtain ⟨keeps, free, retained⟩ := State.commanded_endsOnly (s := s) (engine := engine) (which := which) (o := o)
  have accounts : t.retained = { s.retained with
      accounts := t.retained.accounts, accountCheck := t.retained.accountCheck } := by
    rw [show t.retained = (s.commanded engine which o).retained from
      (congrArg State.retained h.rest).trans rfl]; exact retained
  have power : t.power = { s.power with roseSinceReady := t.power.roseSinceReady } :=
    (congrArg State.power h.rest).trans (by rw [keeps.power]; rfl)
  have intake : t.intake = s.intake := (congrArg State.intake h.rest).trans keeps.intake
  have freeLines : t.freeLines = s.freeLines := (congrArg State.freeLines h.rest).trans free
  have uptime : t.uptime = s.uptime := (congrArg State.uptime h.rest).trans keeps.uptime
  have uptimeMs : t.uptimeMs = s.uptimeMs := (congrArg State.uptimeMs h.rest).trans keeps.uptimeMs
  have mem : t.mem = s.mem := (congrArg State.mem h.rest).trans keeps.mem
  have seed : t.seed = s.seed := (congrArg State.seed h.rest).trans keeps.seed
  have pending : t.pending = s.pending := (congrArg State.pending h.rest).trans keeps.pending
  rw [← accounts, ← power, ← intake, ← freeLines, ← uptime, ← uptimeMs, ← mem, ← seed, ← pending]

end

/-- What the end of each context of a kind leaves behind the judgement (R21). -/
structure State.Commanded (s t : State) (engine : EngineState) (which : CtxState → Bool) (o : CallOutcome) (final : Prop) : Prop
    where
  judged : (s.commanded engine which o).Judged t final
  ctx : ∀ c : CtxId, t.ctx c = if which (s.ctx c).state then (s.ctx c).afterEnd o else s.ctx c
  report : t.report = s.report.append (s.endRefs which)
  waiting : t.waiting = (s.commanded engine which o).waiting
  schedule : t.schedule = (s.commanded engine which o).schedule
  account : ∀ a : AccountId, t.account a = (s.account a).afterEnds (s.booked which a)
  lines : t.lines = (s.commanded engine which o).lines
  meters : t.meters = (s.commanded engine which o).meters
  ready : final → t.ctl = { s.ctl with engine := .ready, error := .none }
  stays : ¬ final → t.ctl = { s.ctl with engine := engine, error := .none }

theorem State.Judged.commanded {s t : State} {engine : EngineState} {which : CtxState → Bool} {o : CallOutcome} {final : Prop}
    (h : (s.commanded engine which o).Judged t final) : s.Commanded t engine which o final := by
  have ctl := (State.commanded_endsOnly (s := s) (engine := engine) (which := which) (o := o)).keeps.ctl
  exact {
    judged := h
    ctx := fun c => (congrArg (fun u : State => u.ctx c) h.rest).trans (State.endEach_ctx o c)
    report := (congrArg State.report h.rest).trans (State.endEach_report o)
    waiting := (congrArg State.waiting h.rest).trans rfl
    schedule := (congrArg State.schedule h.rest).trans rfl
    account := fun a => (congrArg (fun u : State => u.account a) h.rest).trans (State.endEach_account o a)
    lines := (congrArg State.lines h.rest).trans rfl
    meters := (congrArg State.meters h.rest).trans rfl
    ready := fun k => (h.ready k).trans (by rw [ctl]; rfl)
    stays := fun k => (h.stays k).trans ctl }

theorem State.Judged.drained {v t : State} {final : Prop} (h : v.Judged t final) : v.drained = t.drained := by
  rw [h.rest]; rfl

/-- Settles O23: the waiting contexts end, and the drain condition is judged at once. -/
theorem quiesceEndsWaitingCalls : Obligations.QuiesceEndsWaitingCalls := by
  unfold Obligations.QuiesceEndsWaitingCalls
  intro s active running lists
  obtain ⟨t, taken, judged⟩ : ∃ t, s.takeQuiesce = t ∧ (s.commanded .draining CtxState.isWaiting .withdrawn).Judged t
      ((s.commanded .draining CtxState.isWaiting .withdrawn).drained = true) := by
    refine ⟨_, ?_, State.judgeDrain_judged (by rw [State.commanded_endsOnly.keeps.ctl]; rfl)⟩
    unfold State.takeQuiesce; rw [running]; rfl
  have rest := judged.commanded_rest
  have drained := judged.drained
  obtain ⟨-, ctx, report, waiting, schedule, account, lines, meters, ready, stays⟩ := judged.commanded
  obtain ⟨noWaiting, noSchedule⟩ := State.endEach_lists
    (s := s.modCtl fun k => { k with engine := .draining, error := .none }) (which := CtxState.isWaiting) .withdrawn lists rfl rfl
  have off {c : CtxId} (waits : (s.ctx c).state.isWaiting = true) : (s.ctx c).state ≠ .onLine := fun k => by
    rw [k] at waits; exact Bool.noConfusion waits
  have sameLines (l : LineId) : (s.commanded .draining CtxState.isWaiting .withdrawn).line l = s.line l
      ∧ (s.commanded .draining CtxState.isWaiting .withdrawn).meter l = s.meter l := by
    unfold State.commanded
    rw [State.endEach_eq]
    refine State.endAll_line_stays _ (s := s.modCtl _) (.inr fun c mem left => ?_)
    exact Option.noConfusion rfl
      (heq_of_eq ((Context.lineLeft_of_not_onLine (off (State.mem_ofKind.mp mem))).symm.trans left))
  have rests : t.drained = true ↔ t.report.outbox = [] ∧ (∀ c : CtxId, (t.ctx c).state ≠ .onLine)
      ∧ ∀ l : LineId, (t.line l).state ∉ [.seize, .dialing, .awaitAnswer, .connected] := by
    rw [State.drained_iff]
    have active (c : CtxId) : (t.ctx c).state.isActive = false ↔ (t.ctx c).state ≠ .onLine := by
      rw [ctx c]
      cases state : (s.ctx c).state <;> simp [CtxState.isWaiting, CtxState.isActive, state]
    simp only [active]
  rw [drained] at ready stays
  refine ⟨t, (exec_quiesce_of_not_inReset active).trans (congrArg _ taken), fun c => ?_, report, waiting.trans noWaiting,
    schedule.trans noSchedule, account, ?_, fun k => ready (rests.mpr k), fun k => stays fun d => k (rests.mp d)⟩
  · rw [ctx c]
    refine ite_congr rfl (fun waits => ?_) fun _ => rfl
    rw [Context.afterEnd_eq_ended, Context.lineLeft_of_not_onLine (off waits)]
    rfl
  · refine rest.trans ?_
    rw [lines.trans (State.lines_eq fun l => (sameLines l).1), meters.trans (State.meters_eq fun l => (sameLines l).2)]

/-- Settles O24: the active contexts end, the off-hook lines with them. -/
theorem abortEndsActiveCalls : Obligations.AbortEndsActiveCalls := by
  unfold Obligations.AbortEndsActiveCalls
  intro s active engine lists exact'
  obtain ⟨t, taken, judged⟩ : ∃ t, s.takeAbort = t ∧ (s.commanded .aborting CtxState.isActive .aborted).Judged t
      ((s.commanded .aborting CtxState.isActive .aborted).report.outbox = []) := by
    refine ⟨_, ?_, State.judgeAbort_judged (by rw [State.commanded_endsOnly.keeps.ctl]; rfl)⟩
    unfold State.takeAbort
    rcases engine with h | h <;> rw [h] <;> rfl
  have rest := judged.commanded_rest
  obtain ⟨judgement, ctx, report, waiting, schedule, account, lines, meters, ready, stays⟩ := judged.commanded
  obtain ⟨noWaiting, noSchedule⟩ := State.endEach_lists
    (s := s.modCtl fun k => { k with engine := .aborting, error := .none }) (which := CtxState.isActive) .aborted lists rfl rfl
  have linked := State.linesExact_iff.mp exact' fun halted => by
    rw [halted] at engine; exact engine.elim EngineState.noConfusion EngineState.noConfusion
  have outbox : (s.commanded .aborting CtxState.isActive .aborted).report.outbox = t.report.outbox := by rw [judgement.rest]
  have ended : s.commanded .aborting CtxState.isActive .aborted
      = (s.modCtl fun k => { k with engine := .aborting, error := .none }).endAll (s.ofKind CtxState.isActive) .aborted :=
    State.endEach_eq _ _ _
  have line (l : LineId) : t.line l = (s.commanded .aborting CtxState.isActive .aborted).line l := State.line_congr lines l
  have meter (l : LineId) : t.meter l = (s.commanded .aborting CtxState.isActive .aborted).meter l := State.meter_congr meters l
  rw [outbox] at ready stays
  refine ⟨t, (exec_abort_of_not_inReset active).trans (congrArg _ taken), fun c => ?_, report, waiting.trans noWaiting,
    schedule.trans noSchedule, fun l => ⟨fun offHook => ?_, fun onHook => ?_⟩, account, rest, ready, stays⟩
  · have last : (if (s.ctx c).lineLeft.isSome then some CallOutcome.aborted else (s.ctx c).lastOutcome)
        = if (s.ctx c).state = .onLine then some .aborted else (s.ctx c).lastOutcome := by
      by_cases onLine : (s.ctx c).state = .onLine
      · obtain ⟨l, held⟩ := linked.holds c onLine
        rw [if_pos onLine, Context.lineLeft_of_onLine onLine (linked.names l c held).2]
        rfl
      · rw [if_neg onLine, Context.lineLeft_of_not_onLine onLine]
        rfl
    rw [ctx c, Context.afterEnd_eq_ended, last]
  · obtain ⟨c, held, onLine⟩ := linked.held_of_offHook offHook
    rw [line, meter, ended]
    exact State.endAll_line_clears _ (s.ofKind_nodup _) (s := s.modCtl _) (c := c)
      (State.mem_ofKind.mpr (by rw [onLine]; rfl)) (Context.lineLeft_of_onLine onLine (linked.names l c held).2) offHook
  · rw [line, meter, ended]
    exact State.endAll_line_stays _ (s := s.modCtl _) (.inl onHook)

end Sys2Proof.Machine
end

section
/-! PROOF. The sweep (R52) as a run of ending steps. -/

namespace Sys2Proof.Machine

/-- The waiting contexts whose mask names no usable line, in the order of the waiting list (R52). -/
def State.lost (s : State) : List CtxId := s.waiting.all.filter fun c => !s.maskUsable (s.ctx c).mask

theorem State.maskUsable_congr {s t : State} (h : ∀ l, (t.line l).state = (s.line l).state) (mask : BitVec 8) :
    t.maskUsable mask = s.maskUsable mask := by
  unfold State.maskUsable
  simp only [h]

/-- A context that is not ON_LINE ends: no line changes (R11). -/
theorem State.endContext_sameLines {s : State} {c : CtxId} (off : (s.ctx c).state ≠ .onLine) (o : CallOutcome) :
    s.SameLines (s.endContext c o) := (State.endContext_ends_off off o).2

section
variable {s : State} (lists : s.ListsExact)
include lists

theorem State.ListsExact.waiting_off {c : CtxId} (waits : c ∈ s.waiting.all) : (s.ctx c).state ≠ .onLine := by
  rw [lists.pending_of_waits waits]; exact CtxState.noConfusion

/-- The sweep ends exactly what is lost at its start, head to tail (R52). -/
theorem State.ListsExact.sweep_eq : s.sweep = s.endAll s.lost .noLine := by
  have steps : State.sweepOne = fun u c => if (!u.maskUsable (u.ctx c).mask) = true then u.endContext c .noLine else u := by
    funext u c
    unfold State.sweepOne
    cases u.maskUsable (u.ctx c).mask <;> rfl
  unfold State.sweep State.lost
  rw [steps]
  refine State.foldl_ending (pick := fun u c => !u.maskUsable (u.ctx c).mask) (inv := fun u c => (u.ctx c).state ≠ .onLine)
    (fun u c d off apart offD => ?_) s.waiting.all s lists.waiting_nodup fun c waits => lists.waiting_off waits
  have usable := State.maskUsable_congr (s := u) (t := u.endContext c .noLine)
    (fun l => congrArg Line.state (State.endContext_sameLines off .noLine l).1) (u.ctx d).mask
  rw [u.endContext_others c .noLine d apart, usable]
  exact ⟨offD, rfl⟩

theorem State.ListsExact.lost_nodup : s.lost.Nodup := lists.waiting_nodup.filter _

omit lists in
theorem State.mem_lost {c : CtxId} : c ∈ s.lost ↔ c ∈ s.waiting.all ∧ s.maskUsable (s.ctx c).mask = false := by
  simp [State.lost]

theorem State.ListsExact.lost_off {c : CtxId} (mem : c ∈ s.lost) : (s.ctx c).lineLeft = none :=
  Context.lineLeft_of_not_onLine (lists.waiting_off (State.mem_lost.mp mem).1)

theorem State.ListsExact.sweep_ctx (c : CtxId) :
    s.sweep.ctx c = if c ∈ s.lost then (s.ctx c).ended (s.ctx c).lastOutcome .noLine else s.ctx c := by
  rw [lists.sweep_eq, State.endAll_ctx _ lists.lost_nodup]
  refine ite_congr rfl (fun mem => ?_) fun _ => rfl
  rw [Context.afterEnd_eq_ended, lists.lost_off mem]
  rfl

theorem State.ListsExact.sweep_sameLines : s.SameLines s.sweep := fun l => by
  rw [lists.sweep_eq]
  refine State.endAll_line_stays _ (.inr fun c mem left => ?_)
  exact Option.noConfusion rfl (heq_of_eq ((lists.lost_off mem).symm.trans left))

/-- The waiting list behind the sweep (R52): what can still use a line, in its order. -/
theorem State.ListsExact.sweep_waiting :
    s.sweep.waiting
      = { urgent := s.waiting.urgent.filter fun c => s.maskUsable (s.ctx c).mask
          routine := s.waiting.routine.filter fun c => s.maskUsable (s.ctx c).mask } := by
  have stays {c : CtxId} (waits : c ∈ s.waiting.all) : (!s.leaves s.lost .pending c) = s.maskUsable (s.ctx c).mask := by
    unfold State.leaves
    rw [decide_eq_true (lists.pending_of_waits waits), Bool.and_true]
    by_cases usable : s.maskUsable (s.ctx c).mask = true
    · rw [usable, decide_eq_false fun k => Bool.noConfusion (usable.symm.trans (State.mem_lost.mp k).2)]
      rfl
    · have unusable := Bool.eq_false_iff.mpr usable
      rw [unusable, decide_eq_true (State.mem_lost.mpr ⟨waits, unusable⟩)]
      rfl
  rw [lists.sweep_eq, State.endAll_waiting _ lists.lost_nodup]
  rw [List.filter_congr fun c mem => stays (List.mem_append_left _ mem),
    List.filter_congr fun c mem => stays (List.mem_append_right _ mem)]

theorem State.ListsExact.sweep_schedule : s.sweep.schedule = s.schedule := by
  rw [lists.sweep_eq, State.endAll_schedule _ lists.lost_nodup]
  refine List.filter_eq_self.mpr fun c _ => ?_
  unfold State.leaves
  by_cases mem : c ∈ s.lost
  · rw [lists.pending_of_waits (State.mem_lost.mp mem).1]; simp
  · simp [mem]

/-- Behind a sweep every waiting context can use a line, so that another sweep ends none. -/
theorem State.ListsExact.sweep_sweep : s.sweep.sweep = s.sweep := by
  have after : s.sweep.ListsExact := lists.sweep
  have none' : s.sweep.lost = [] := by
    refine List.filter_eq_nil_iff.mpr fun c waits => ?_
    have waits' : c ∈ s.waiting.all ∧ s.maskUsable (s.ctx c).mask = true := by
      rw [lists.sweep_waiting] at waits
      simpa [Waiting.all, or_and_right] using waits
    have stays : c ∉ s.lost := fun k => Bool.noConfusion (waits'.2.symm.trans (State.mem_lost.mp k).2)
    have usable := State.maskUsable_congr (s := s) (t := s.sweep)
      (fun l => congrArg Line.state (lists.sweep_sameLines l).1) (s.ctx c).mask
    rw [lists.sweep_ctx c, if_neg stays, usable, waits'.2]
    exact Bool.noConfusion
  rw [after.sweep_eq, none', State.endAll_nil]

end

end Sys2Proof.Machine
end

section
/-! PROOF. The pairing pass (R48 to R50): what serves one pair, and the shape of the whole pass. -/

namespace Sys2Proof.Machine

/-! ## One pair served -/

/-- What the service of a waiting context with a free line leaves alone, refused or granted (R48 step 3). -/
structure State.Serves (s t : State) (c : CtxId) (l : LineId) : Prop where
  lists : t.ListsExact
  waiting : t.waiting = s.waiting.remove c
  schedule : t.schedule = s.schedule
  free : ∀ k : LineId, k ≠ l → (k ∈ t.freeLines ↔ k ∈ s.freeLines)
  otherCtxs : s.OtherCtxs t c
  otherLines : s.OtherLines t l
  served : (t.ctx c).state ≠ .pending
  keeps : s.Keeps t

/-- A refused context ends; no line changes (R48, R49). -/
theorem State.ListsExact.serves_refused {s : State} (lists : s.ListsExact) {c : CtxId} (waits : c ∈ s.waiting.all) (l : LineId)
    (o : CallOutcome) : s.Serves (s.endContext c o) c l where
  lists := lists.endContext c o
  waiting := by rw [State.endContext_waiting, if_pos (lists.pending_of_waits waits)]
  schedule := by
    rw [State.endContext_schedule, if_neg (by rw [lists.pending_of_waits waits]; exact CtxState.noConfusion)]
  free := fun k _ => by rw [State.endContext_freeLines]
  otherCtxs := s.endContext_others c o
  otherLines := fun k _ => State.endContext_sameLines (lists.waiting_off waits) o k
  served := by rw [State.endContext_ctx_same]; exact CtxState.noConfusion
  keeps := s.endContext_keeps c o

theorem State.withLine_self (s : State) (l : LineId) : s.withLine l (s.line l) = s := by
  unfold State.withLine State.line
  rw [show s.lines.set l s.lines[l] = s.lines from Vector.ext fun i less => by
    rw [Vector.getElem_set]; split
    · rename_i same; subst same; rfl
    · rfl]

/-- The end of the loop wait on a NORMAL pattern changes the line alone, which stays held (R62, R63). -/
theorem State.loopWaitEnd_line (s : State) {l : LineId} (c : CtxId) (normal : (s.line l).loopPattern = .normal) :
    ∃ y : Line, y.held = (s.line l).held ∧ s.loopWaitEnd l c = s.withLine l y := by
  rw [State.loopWaitEnd_eq]
  split
  · refine ⟨_, ?_, rfl⟩
    rfl
  · cases next : (s.ctx c).symbols[0]? with
    | some symbol =>
      refine ⟨_, ?_, State.withLine_beginSymbol_some (pos := 0) s l _ next⟩
      cases symbol <;> rfl
    | none =>
      refine ⟨_, ?_, (State.withLine_beginSymbol_none (pos := 0) s l _ next).trans (if_neg ?_)⟩
      · rfl
      · rw [normal]; exact LoopPattern.noConfusion

/-- The entry to SEIZE (R61) on a line whose loop is not INVALID changes the line alone, which stays held. -/
theorem State.seizeEntry_line (s : State) {l : LineId} (c : CtxId) (valid : (s.line l).loopPattern ≠ .invalid) :
    ∃ y : Line, y.held = (s.line l).held ∧ s.seizeEntry l c = (s.withLine l y, false) := by
  cases pattern : (s.line l).loopPattern with
  | normal =>
    obtain ⟨y, held, written⟩ := s.loopWaitEnd_line c pattern
    exact ⟨y, held, by rw [State.seizeEntry_of_normal pattern, written]⟩
  | invalid => exact absurd pattern valid
  | noLoop =>
    exact ⟨s.line l, rfl, by rw [State.seizeEntry_of_waiting (by rw [pattern]; decide), State.withLine_self]⟩
  | reversed =>
    exact ⟨s.line l, rfl, by rw [State.seizeEntry_of_waiting (by rw [pattern]; decide), State.withLine_self]⟩

theorem State.grant_freeLines (s : State) (c : CtxId) (l : LineId) :
    (s.grant c l).freeLines = s.freeLines.filter fun k => decide (k ≠ l) := by rw [State.grant_eq]

theorem State.grant_otherLines (s : State) (c : CtxId) (l : LineId) : s.OtherLines (s.grant c l) l := by
  intro k other
  rw [State.grant_eq]
  exact ⟨s.modLine_line_other l k (fun _ => (s.line l).toSeize c) other, rfl⟩

theorem State.OtherLines.trans {s t u : State} {l : LineId} (h : s.OtherLines t l) (k : t.OtherLines u l) :
    s.OtherLines u l := fun i other => ⟨(k i other).1.trans (h i other).1, (k i other).2.trans (h i other).2⟩

/-- The fault step of a held line, its report with it (R77): what the allocator sees of it. -/
theorem State.Holds.faultLine_leaves {s : State} {l : LineId} {c : CtxId} (holds : s.Holds l c) :
    ((s.faultLine l).ctx c).state = .ended ∧ s.OtherLines (s.faultLine l) l ∧ (s.faultLine l).freeLines = s.freeLines
      ∧ s.OtherCtxs (s.faultLine l) c ∧ (s.faultLine l).waiting = s.waiting ∧ (s.faultLine l).schedule = s.schedule := by
  obtain ⟨ends, -, -, otherLines, waiting, schedule⟩ := holds.faultEnd_ends
  have written := holds.faultLine_eq
  generalize s.faultEnd l c = v at ends otherLines waiting schedule written
  rw [written]
  exact ⟨congrArg Context.state ends.ctx, otherLines, ends.free, ends.others, waiting, schedule⟩

/-- An admitted context is granted the line and passes the entry to SEIZE (R50, R61). -/
theorem State.ListsExact.serves_granted {s : State} (lists : s.ListsExact) {c : CtxId} {l : LineId} (waits : c ∈ s.waiting.all)
    (free : l ∈ s.freeLines) : s.Serves ((s.grant c l).seizeEntry l c).1 c l := by
  have granted : (s.grant c l).ListsExact :=
    (State.Act.grant (R := fun _ _ => True) c l waits free).listsExact lists
  have holds := s.grant_holds c l
  have others : ∀ k : LineId, k ≠ l → (k ∈ (s.grant c l).freeLines ↔ k ∈ s.freeLines) := fun k other => by
    rw [State.grant_freeLines]; simp [other]
  by_cases valid : ((s.grant c l).line l).loopPattern = .invalid
  · obtain ⟨ended, otherLines, freeLines, otherCtxs, waiting, schedule⟩ := holds.faultLine_leaves
    rw [State.seizeEntry_of_invalid valid]
    exact {
      lists := granted.faultLine l
      waiting := waiting.trans (s.grant_waiting c l)
      schedule := schedule.trans (s.grant_schedule c l)
      free := fun k other => by rw [freeLines]; exact others k other
      otherCtxs := (s.grant_others c l).trans otherCtxs
      otherLines := (s.grant_otherLines c l).trans otherLines
      served := by rw [ended]; exact CtxState.noConfusion
      keeps := (s.grant_keeps c l).trans ((s.grant c l).faultLine_keeps l) }
  · obtain ⟨y, -, written⟩ := (s.grant c l).seizeEntry_line c valid
    rw [written]
    exact {
      lists := granted
      waiting := s.grant_waiting c l
      schedule := s.grant_schedule c l
      free := others
      otherCtxs := s.grant_others c l
      otherLines := (s.grant_otherLines c l).trans (State.withLine_otherLines _ l y)
      served := fun k => CtxState.noConfusion (holds.onLine.symm.trans k)
      keeps := (s.grant_keeps c l).trans (State.withLine_keeps _ l y) }

/-- A pair found is served, one way or the other (R48 step 3): the loop goes on from there, one waiting context fewer. -/
theorem State.ListsExact.passLoop_serves {s : State} (lists : s.ListsExact) {c : CtxId} {l : LineId}
    (pair : s.firstPair = some (c, l)) :
    ∃ t : State, s.Serves t c l ∧ ∀ n : Nat, (State.passLoop (n + 1) s).1 = (State.passLoop n t).1 := by
  obtain ⟨waits, free, -⟩ := State.firstPair_some pair
  cases refusal : s.admissionRefusal c with
  | some o => exact ⟨_, lists.serves_refused waits l o, fun n => by rw [State.passLoop_refused n pair refusal]⟩
  | none => exact ⟨_, lists.serves_granted waits free, fun n => by rw [State.passLoop_granted n pair refusal]⟩

/-! ## The whole pass -/

/-- A waiting context fewer. -/
theorem Waiting.remove_length {w : Waiting} {c : CtxId} (nodup : w.all.Nodup) (mem : c ∈ w.all) :
    (w.remove c).all.length + 1 = w.all.length := by
  have removed : (w.remove c).all = w.all.erase c := by
    rw [nodup.erase_eq_filter]
    simp [Waiting.remove, Waiting.all, bne, Bool.beq_eq_decide_eq]
  have some := List.length_pos_of_mem mem
  rw [removed, List.length_erase_of_mem mem]
  omega

theorem State.ListsExact.serves_length {s t : State} (lists : s.ListsExact) {c : CtxId} {l : LineId} (h : s.Serves t c l)
    (waits : c ∈ s.waiting.all) : t.waiting.all.length + 1 = s.waiting.all.length := by
  rw [h.waiting]; exact Waiting.remove_length lists.waiting_nodup waits

/-- A property that each service of a pair keeps is kept by a run of the pass (R48). -/
theorem State.ListsExact.passLoop_induct {P : State → Prop}
    (serve : ∀ (u t : State) (c : CtxId) (l : LineId), u.ListsExact → u.firstPair = some (c, l) → u.Serves t c l → P u → P t)
    (n : Nat) {s : State} (lists : s.ListsExact) (h : P s) :
    (State.passLoop n s).1.ListsExact ∧ P (State.passLoop n s).1 := by
  induction n generalizing s with
  | zero => exact ⟨lists, h⟩
  | succ n ih =>
    cases pair : s.firstPair with
    | none => rw [State.passLoop_done _ pair]; exact ⟨lists, h⟩
    | some p =>
      obtain ⟨t, serves, later⟩ := lists.passLoop_serves (c := p.1) (l := p.2) pair
      rw [later n]
      exact ih serves.lists (serve s t p.1 p.2 lists pair serves h)

/-- A run long enough serves every pair (R48). -/
theorem State.ListsExact.passLoop_no_pair {n : Nat} {s : State} (lists : s.ListsExact) (fuel : s.waiting.all.length ≤ n) :
    (State.passLoop n s).1.firstPair = none := by
  induction n generalizing s with
  | zero =>
    have empty : s.waiting.all = [] := List.length_eq_zero_iff.mp (Nat.le_zero.mp fuel)
    unfold State.passLoop State.firstPair
    rw [empty]
    rfl
  | succ n ih =>
    cases pair : s.firstPair with
    | none => rw [State.passLoop_done _ pair]; exact pair
    | some p =>
      obtain ⟨t, serves, later⟩ := lists.passLoop_serves (c := p.1) (l := p.2) pair
      have shorter := lists.serves_length serves (State.firstPair_some (c := p.1) (l := p.2) pair).1
      rw [later n]
      exact ih serves.lists (by omega)

end Sys2Proof.Machine
end

section
/-! PROOF. The pairing pass as a whole, and what it leaves alone (R48 to R52). -/

namespace Sys2Proof.Machine

/-! ## No pair is left -/

theorem Waiting.mem_remove {w : Waiting} {c d : CtxId} : d ∈ (w.remove c).all ↔ d ≠ c ∧ d ∈ w.all := by
  simp only [Waiting.remove, Waiting.all, List.mem_append, List.mem_filter, decide_eq_true_eq]
  rw [← or_and_right, and_comm]

theorem State.firstPair_eq_none {s : State} :
    s.firstPair = none ↔ ∀ c ∈ s.waiting.all, ∀ l ∈ s.freeLines, maskNames (s.ctx c).mask l = false := by
  refine ⟨fun h c waits l free => State.firstPair_none h waits free, fun h => ?_⟩
  unfold State.firstPair
  refine List.findSome?_eq_none_iff.mpr fun c waits => ?_
  rw [Option.map_eq_none_iff, List.find?_eq_none]
  intro l free names
  rw [h c waits l free] at names
  exact Bool.noConfusion names

/-- The first pair of a pass (R48 steps 1 and 2). -/
theorem State.firstPair_eq {s : State} {ahead behind : List CtxId} {c : CtxId} {before after : List LineId} {l : LineId}
    (waiting : s.waiting.all = ahead ++ c :: behind) (free : s.freeLines = before ++ l :: after)
    (passed : ∀ d ∈ ahead, ∀ k ∈ s.freeLines, (s.ctx d).mask.getLsbD k.val = false)
    (skipped : ∀ k ∈ before, (s.ctx c).mask.getLsbD k.val = false) (names : (s.ctx c).mask.getLsbD l.val = true) :
    s.firstPair = some (c, l) := by
  have none' : ahead.findSome? (fun d => (s.freeLines.find? fun k => maskNames (s.ctx d).mask k).map fun k => (d, k)) = none := by
    refine List.findSome?_eq_none_iff.mpr fun d mem => ?_
    rw [Option.map_eq_none_iff, List.find?_eq_none]
    exact fun k free names => Bool.noConfusion ((passed d mem k free).symm.trans names)
  have unnamed : (before.find? fun k => maskNames (s.ctx c).mask k) = none :=
    List.find?_eq_none.mpr fun k mem names => Bool.noConfusion ((skipped k mem).symm.trans names)
  have found : (s.freeLines.find? fun k => maskNames (s.ctx c).mask k) = some l := by
    rw [free, List.find?_append, unnamed]
    exact List.find?_cons_of_pos names
  unfold State.firstPair
  rw [waiting, List.findSome?_append, none', List.findSome?_cons, found]
  rfl

section
variable {s : State} (lists : s.ListsExact)
include lists

theorem State.ListsExact.sweep_mem {c : CtxId} (waits : c ∈ s.sweep.waiting.all) :
    c ∈ s.waiting.all ∧ s.sweep.ctx c = s.ctx c := by
  have waits' : c ∈ s.waiting.all ∧ s.maskUsable (s.ctx c).mask = true := by
    rw [lists.sweep_waiting] at waits
    simpa [Waiting.all, or_and_right] using waits
  refine ⟨waits'.1, ?_⟩
  rw [lists.sweep_ctx c, if_neg fun k => Bool.noConfusion (waits'.2.symm.trans (State.mem_lost.mp k).2)]

theorem State.ListsExact.sweep_freeLines : s.sweep.freeLines = s.freeLines := by
  rw [lists.sweep_eq]; exact (State.endAll_endsOnly _ _ _).freeLines

/-- A sweep makes no new pair. -/
theorem State.ListsExact.sweep_no_pair (none' : s.firstPair = none) : s.sweep.firstPair = none := by
  rw [State.firstPair_eq_none] at none' ⊢
  intro c waits l free
  obtain ⟨waits', same⟩ := lists.sweep_mem waits
  rw [same]
  exact none' c waits' l (by rwa [lists.sweep_freeLines] at free)

/-- The pass: every pair served, and the sweep behind a line lost in it (R48, log 21). -/
theorem State.ListsExact.pass_eq (running : s.ctl.engine = .running) :
    s.pass = if (State.passLoop s.waiting.all.length s).2 then (State.passLoop s.waiting.all.length s).1.sweep
      else (State.passLoop s.waiting.all.length s).1 := by
  have served := lists.passLoop_induct (P := fun _ => True) (fun _ _ _ _ _ _ _ _ => trivial) s.waiting.all.length trivial
  have swept := served.1.sweep_no_pair (lists.passLoop_no_pair le_rfl)
  unfold State.pass
  rw [if_pos running]
  rcases loop : State.passLoop s.waiting.all.length s with ⟨t, lost⟩
  rw [loop] at swept
  cases lost with
  | false => rfl
  | true => exact congrArg Prod.fst (State.passLoop_done _ swept)

theorem State.ListsExact.pass_no_pair (running : s.ctl.engine = .running) : s.pass.firstPair = none := by
  have served := lists.passLoop_induct (P := fun _ => True) (fun _ _ _ _ _ _ _ _ => trivial) s.waiting.all.length trivial
  have none' := lists.passLoop_no_pair (n := s.waiting.all.length) le_rfl
  rw [lists.pass_eq running]
  split
  · exact served.1.sweep_no_pair none'
  · exact none'

/-- With no pair a pass changes nothing. -/
theorem State.ListsExact.pass_of_no_pair (running : s.ctl.engine = .running) (none' : s.firstPair = none) : s.pass = s := by
  rw [lists.pass_eq running, State.passLoop_done _ none']
  rfl

/-- A property that each service of a pair and each sweep keeps is kept by a pass. -/
theorem State.ListsExact.pass_induct {P : State → Prop}
    (serve : ∀ (u t : State) (c : CtxId) (l : LineId), u.ListsExact → u.firstPair = some (c, l) → u.Serves t c l → P u → P t)
    (sweep : ∀ u : State, u.ListsExact → P u → P u.sweep) (h : P s) : P s.pass := by
  by_cases running : s.ctl.engine = .running
  · obtain ⟨lists', served⟩ := lists.passLoop_induct serve s.waiting.all.length h
    rw [lists.pass_eq running]
    split
    · exact sweep _ lists' served
    · exact served
  · rw [State.pass_of_not_running running]; exact h

/-! ## What a pass leaves alone -/

/-- A context that does not wait is not touched (R48, R52). -/
theorem State.ListsExact.pass_ctx {c : CtxId} (still : (s.ctx c).state ≠ .pending) : s.pass.ctx c = s.ctx c := by
  refine (lists.pass_induct (P := fun u => u.ctx c = s.ctx c) (fun u t d l lists pair serves same => ?_)
    (fun u lists same => ?_) rfl)
  · have waits := lists.pending_of_waits (State.firstPair_some pair).1
    exact (serves.otherCtxs c fun e => still (by rw [← same, e, waits])).trans same
  · rw [lists.sweep_ctx c, if_neg fun k => still ?_, same]
    rw [← same]
    exact lists.pending_of_waits (State.mem_lost.mp k).1

/-- A pass leaves the retry schedule alone (R48, R108). -/
theorem State.ListsExact.pass_schedule : s.pass.schedule = s.schedule :=
  lists.pass_induct (P := fun u => u.schedule = s.schedule) (fun _ _ _ _ _ _ serves same => serves.schedule.trans same)
    (fun _ lists same => lists.sweep_schedule.trans same) rfl

/-- A line that is not free is not touched (R48). -/
theorem State.ListsExact.pass_line {l : LineId} (taken : l ∉ s.freeLines) : s.pass.line l = s.line l ∧ l ∉ s.pass.freeLines := by
  refine lists.pass_induct (P := fun u => u.line l = s.line l ∧ l ∉ u.freeLines) (fun u t d k lists pair serves h => ?_)
    (fun u lists h => ?_) ⟨rfl, taken⟩
  · have other : l ≠ k := fun e => h.2 (e ▸ (State.firstPair_some pair).2.1)
    exact ⟨(serves.otherLines l other).1.trans h.1, fun k => h.2 ((serves.free l other).mp k)⟩
  · rw [lists.sweep_freeLines, (lists.sweep_sameLines l).1]; exact h

/-- A free line that no waiting context names stays free (R48). -/
theorem State.ListsExact.pass_free {l : LineId} (free : l ∈ s.freeLines)
    (unnamed : ∀ d ∈ s.waiting.all, (s.ctx d).mask.getLsbD l.val = false) : l ∈ s.pass.freeLines ∧ s.pass.line l = s.line l := by
  have kept := lists.pass_induct
    (P := fun u => (l ∈ u.freeLines ∧ u.line l = s.line l) ∧ ∀ d ∈ u.waiting.all, (u.ctx d).mask.getLsbD l.val = false)
    (fun u t d k lists pair serves h => ?_) (fun u lists h => ?_) ⟨⟨free, rfl⟩, unnamed⟩
  · exact kept.1
  · obtain ⟨waits, -, names⟩ := State.firstPair_some pair
    have other : l ≠ k := fun e => Bool.noConfusion ((h.2 d waits).symm.trans (e ▸ names))
    refine ⟨⟨(serves.free l other).mpr h.1.1, (serves.otherLines l other).1.trans h.1.2⟩, fun e mem => ?_⟩
    have mem' := Waiting.mem_remove.mp (serves.waiting ▸ mem)
    rw [serves.otherCtxs e mem'.1]
    exact h.2 e mem'.2
  · refine ⟨by rw [lists.sweep_freeLines, (lists.sweep_sameLines l).1]; exact h.1, fun d waits => ?_⟩
    obtain ⟨waits', same⟩ := lists.sweep_mem waits
    rw [same]
    exact h.2 d waits'

end

/-! ## The first pair -/

section
variable {s : State} (running : s.ctl.engine = .running) (lists : s.ListsExact) {c : CtxId} {l : LineId}
  (pair : s.firstPair = some (c, l))
include running lists pair

/-- Behind a refusal the pass goes on as a pass of its own (R48 step 3). -/
theorem State.pass_of_refused {o : CallOutcome} (refusal : s.admissionRefusal c = some o) :
    s.pass = (s.endContext c o).pass := by
  have waits := (State.firstPair_some pair).1
  have serves := lists.serves_refused waits l o
  have running' : (s.endContext c o).ctl.engine = .running := by rw [serves.keeps.ctl]; exact running
  rw [lists.pass_eq running, serves.lists.pass_eq running', ← lists.serves_length serves waits,
    State.passLoop_refused _ pair refusal]

/-- Behind a grant that loses no line the pass goes on as a pass of its own. -/
theorem State.pass_of_granted (admitted : s.admissionRefusal c = none)
    (valid : ((s.grant c l).seizeEntry l c).2 = false) : s.pass = ((s.grant c l).seizeEntry l c).1.pass := by
  obtain ⟨waits, free, -⟩ := State.firstPair_some pair
  have serves := lists.serves_granted waits free
  have running' : ((s.grant c l).seizeEntry l c).1.ctl.engine = .running := by rw [serves.keeps.ctl]; exact running
  rw [lists.pass_eq running, serves.lists.pass_eq running', ← lists.serves_length serves waits,
    State.passLoop_granted _ pair admitted, valid, Bool.false_or]

/-- Behind a grant that loses the line the pass ends in the sweep (R61, log 21). -/
theorem State.pass_of_lost (admitted : s.admissionRefusal c = none)
    (lost : ((s.grant c l).seizeEntry l c).2 = true) : s.pass = ((s.grant c l).seizeEntry l c).1.pass.sweep.pass := by
  obtain ⟨waits, free, -⟩ := State.firstPair_some pair
  have serves := lists.serves_granted waits free
  have running' : ((s.grant c l).seizeEntry l c).1.ctl.engine = .running := by rw [serves.keeps.ctl]; exact running
  obtain ⟨lists', -⟩ := serves.lists.passLoop_induct (P := fun _ => True) (fun _ _ _ _ _ _ _ _ => trivial)
    ((s.grant c l).seizeEntry l c).1.waiting.all.length trivial
  have swept : ((s.grant c l).seizeEntry l c).1.pass.sweep
      = (State.passLoop ((s.grant c l).seizeEntry l c).1.waiting.all.length ((s.grant c l).seizeEntry l c).1).1.sweep := by
    rw [serves.lists.pass_eq running']
    split
    · exact lists'.sweep_sweep
    · rfl
  have running'' : ((s.grant c l).seizeEntry l c).1.pass.sweep.ctl.engine = .running := by
    rw [(State.sweep_keeps _).ctl, (State.pass_keeps _).ctl]; exact running'
  have ends : s.pass = ((s.grant c l).seizeEntry l c).1.pass.sweep := by
    rw [swept, lists.pass_eq running, ← lists.serves_length serves waits, State.passLoop_granted _ pair admitted, lost,
      Bool.true_or, if_pos rfl]
  rw [ends]
  refine (State.ListsExact.pass_of_no_pair ?_ running'' ?_).symm
  · rw [swept]; exact lists'.sweep
  · rw [swept]; exact lists'.sweep_no_pair (serves.lists.passLoop_no_pair le_rfl)

end

end Sys2Proof.Machine
end

section
/-! PROOF. The pass and the sweep in the terms of their statement (R48 to R52). -/

namespace Sys2Proof.Machine

/-! ## The first pair refused -/

/-- What a refusal at the first pair leaves (R49). -/
theorem State.firstPair_refused {s : State} (running : s.ctl.engine = .running) (lists : s.ListsExact) {c : CtxId} {l : LineId}
    (pair : s.firstPair = some (c, l)) {o : CallOutcome} (refusal : s.admissionRefusal c = some o) :
    (∃ v : State, s.EndsContext v c (s.ctx c).lastOutcome o ∧ s.SameLines v
        ∧ v.waiting = s.waiting.remove c ∧ v.schedule = s.schedule ∧ s.pass = v.pass)
      ∧ s.pass.ctx c = (s.ctx c).ended (s.ctx c).lastOutcome o
      ∧ ((∀ d ∈ s.waiting.all, d ≠ c → (s.ctx d).mask.getLsbD l.val = false) → l ∈ s.pass.freeLines ∧ s.pass.line l = s.line l) := by
  obtain ⟨waits, free, -⟩ := State.firstPair_some pair
  have pending := lists.pending_of_waits waits
  obtain ⟨ends, lines⟩ := State.endContext_ends_off (lists.waiting_off waits) o
  have serves := lists.serves_refused waits l o
  have passes := State.pass_of_refused running lists pair refusal
  refine ⟨⟨_, ends, lines, serves.waiting, ?_, passes⟩, ?_, fun unnamed => ?_⟩
  · rw [State.endContext_schedule, if_neg fun k => CtxState.noConfusion (pending.symm.trans k)]
  · rw [passes, serves.lists.pass_ctx serves.served, ends.ctx]
  · rw [passes, ← (lines l).1]
    refine serves.lists.pass_free (by rw [State.endContext_freeLines]; exact free) fun d mem => ?_
    obtain ⟨other, mem⟩ := Waiting.mem_remove.mp (serves.waiting ▸ mem)
    rw [serves.otherCtxs d other]
    exact unnamed d mem other

/-! ## The first pair granted -/

/-- Context and line of a grant behind the entry to SEIZE (R50, R61, R77). -/
structure State.Granted (s t : State) (c : CtxId) (l : LineId) : Prop where
  taken : l ∉ t.freeLines
  lastLine : (t.ctx c).lastLine = some l
  attempts : (t.ctx c).attempts = (s.ctx c).attempts + 1
  valid : (s.line l).loopPattern ≠ .invalid → (t.ctx c).state = .onLine ∧ (t.ctx c).currentLine = some l
    ∧ (t.line l).held = some c
  lost : (s.line l).loopPattern = .invalid → (t.ctx c).state = .ended ∧ (t.ctx c).finalOutcome = some .lineFault
    ∧ (t.line l).state = .fault

theorem State.grant_pattern (s : State) (c : CtxId) (l : LineId) :
    ((s.grant c l).line l).loopPattern = (s.line l).loopPattern := by rw [State.grant_line]; rfl

theorem State.seizeEntry_granted (s : State) (c : CtxId) (l : LineId) : s.Granted ((s.grant c l).seizeEntry l c).1 c l := by
  have holds := s.grant_holds c l
  have taken : l ∉ (s.grant c l).freeLines := by rw [State.grant_freeLines]; simp
  have pattern := s.grant_pattern c l
  have own := s.grant_ctx_same c l
  by_cases invalid : (s.line l).loopPattern = .invalid
  · obtain ⟨ends, line, -⟩ := holds.faultEnd_ends
    have written := holds.faultLine_eq
    rw [State.seizeEntry_of_invalid (pattern.trans invalid)]
    generalize (s.grant c l).faultEnd l c = v at ends line written
    rw [written]
    have context := ends.ctx
    rw [own] at context
    exact {
      taken := (iff_of_eq (congrArg (l ∉ ·) ends.free)).mpr taken
      lastLine := congrArg Context.lastLine context
      attempts := congrArg Context.attempts context
      valid := fun k => absurd invalid k
      lost := fun _ => ⟨congrArg Context.state context, congrArg Context.finalOutcome context, congrArg Line.state line⟩ }
  · obtain ⟨y, held, written⟩ := (s.grant c l).seizeEntry_line c fun k => invalid (pattern.symm.trans k)
    rw [written]
    exact {
      taken := taken
      lastLine := congrArg Context.lastLine own
      attempts := congrArg Context.attempts own
      valid := fun _ => ⟨holds.onLine, holds.current, by rw [State.withLine_line_same, held, holds.held]⟩
      lost := fun k => absurd k invalid }

theorem State.ListsExact.pass {s : State} (lists : s.ListsExact) : s.pass.ListsExact :=
  lists.pass_induct (P := State.ListsExact) (fun _ _ _ _ _ _ serves _ => serves.lists) (fun _ lists _ => lists.sweep) lists

/-- A pass, a sweep and another pass leave what does not wait and is not free. -/
theorem State.ListsExact.pass_sweep_pass {s : State} (lists : s.ListsExact) {c : CtxId} {l : LineId}
    (still : (s.ctx c).state ≠ .pending) (taken : l ∉ s.freeLines) :
    s.pass.sweep.pass.ctx c = s.ctx c ∧ s.pass.sweep.pass.line l = s.line l ∧ l ∉ s.pass.sweep.pass.freeLines := by
  have lists' := lists.pass
  have ctx := lists.pass_ctx still
  obtain ⟨line, taken'⟩ := lists.pass_line taken
  have swept : s.pass.sweep.ctx c = s.ctx c := by
    rw [lists'.sweep_ctx c, if_neg fun k => still ?_, ctx]
    rw [← ctx]
    exact lists'.pending_of_waits (State.mem_lost.mp k).1
  obtain ⟨line', taken''⟩ := lists'.sweep.pass_line (l := l) (by rw [lists'.sweep_freeLines]; exact taken')
  exact ⟨(lists'.sweep.pass_ctx (by rw [swept]; exact still)).trans swept,
    line'.trans ((lists'.sweep_sameLines l).1.trans line), taken''⟩

/-- What a grant of the first pair leaves (R50, R61). -/
theorem State.firstPair_granted {s : State} (running : s.ctl.engine = .running) (lists : s.ListsExact) {c : CtxId} {l : LineId}
    (pair : s.firstPair = some (c, l)) (admitted : s.admissionRefusal c = none) :
    let t := ((s.grant c l).seizeEntry l c).1
    s.pass.ctx c = t.ctx c ∧ s.pass.line l = t.line l ∧ l ∉ s.pass.freeLines
      ∧ (s.pass.ctx c).lastLine = some l ∧ (s.pass.ctx c).attempts = (s.ctx c).attempts + 1
      ∧ ((s.line l).loopPattern ≠ .invalid → s.pass = t.pass ∧ (s.pass.ctx c).state = .onLine
        ∧ (s.pass.ctx c).currentLine = some l ∧ (s.pass.line l).held = some c)
      ∧ ((s.line l).loopPattern = .invalid → s.pass = t.pass.sweep.pass ∧ (s.pass.ctx c).state = .ended
        ∧ (s.pass.ctx c).finalOutcome = some .lineFault ∧ (s.pass.line l).state = .fault) := by
  intro t
  obtain ⟨waits, free, -⟩ := State.firstPair_some pair
  have serves : s.Serves t c l := lists.serves_granted waits free
  obtain ⟨taken, lastLine, attempts, valid, lost⟩ : s.Granted t c l := s.seizeEntry_granted c l
  have faults : ((s.grant c l).seizeEntry l c).2 = true ↔ (s.line l).loopPattern = .invalid := by
    rw [State.seizeEntry_lost, State.grant_pattern]
  have onward : (s.line l).loopPattern ≠ .invalid → s.pass = t.pass := fun k =>
    State.pass_of_granted running lists pair admitted (Bool.eq_false_iff.mpr fun h => k (faults.mp h))
  have swept : (s.line l).loopPattern = .invalid → s.pass = t.pass.sweep.pass := fun k =>
    State.pass_of_lost running lists pair admitted (faults.mpr k)
  obtain ⟨ctx, line, gone⟩ : s.pass.ctx c = t.ctx c ∧ s.pass.line l = t.line l ∧ l ∉ s.pass.freeLines := by
    by_cases invalid : (s.line l).loopPattern = .invalid
    · rw [swept invalid]; exact serves.lists.pass_sweep_pass serves.served taken
    · rw [onward invalid]; exact ⟨serves.lists.pass_ctx serves.served, serves.lists.pass_line taken⟩
  refine ⟨ctx, line, gone, ?_, ?_, fun k => ⟨onward k, ?_⟩, fun k => ⟨swept k, ?_⟩⟩
  · rw [ctx]; exact lastLine
  · rw [ctx]; exact attempts
  · rw [ctx, line]; exact valid k
  · rw [ctx, line]; exact lost k

/-- Settles O60: the first pair served and no pair left; the sweep as a run of ending steps. -/
theorem passLeavesNoPair : Obligations.PassLeavesNoPair := by
  unfold Obligations.PassLeavesNoPair
  refine ⟨fun s running lists _ _ => ⟨?_, ?_⟩, fun s lists => ?_⟩
  · exact State.firstPair_eq_none.mp (lists.pass_no_pair running)
  · intro ahead c behind before l after waiting free passed skipped names
    have pair := State.firstPair_eq waiting free passed skipped names
    refine ⟨pair, fun o refusal => ?_, fun admitted => State.firstPair_granted running lists pair admitted⟩
    obtain ⟨shown, ctx, stays⟩ := State.firstPair_refused running lists pair refusal
    refine ⟨shown, ctx, fun unnamed => stays fun d mem other => ?_⟩
    rw [waiting, List.mem_append, List.mem_cons] at mem
    rcases mem with mem | same | mem
    · exact passed d mem l (by rw [free]; simp)
    · exact absurd same other
    · exact unnamed d mem
  · intro stays lost booked
    have stays_eq : stays = fun c => s.maskUsable (s.ctx c).mask := by
      funext c
      refine congrArg allLines.any (funext fun l => congrArg (maskNames (s.ctx c).mask l && ·) ?_)
      cases (s.line l).state <;> rfl
    have lost_eq : lost = s.lost := by
      show s.waiting.all.filter (fun c => !stays c) = _
      rw [stays_eq]
      rfl
    have booked_eq : booked = fun a => s.lost.countP (s.counts a) := by rw [← lost_eq]; rfl
    have ends := State.endAll_endsOnly .noLine s.lost s
    rw [← lists.sweep_eq] at ends
    rw [lost_eq, stays_eq, booked_eq]
    refine ⟨fun c mem => ?_, fun c away => ?_, lists.sweep_waiting, ?_, fun a => ?_, fun unanswered => ?_, ?_⟩
    · rw [lists.sweep_ctx c, if_pos mem]
    · rw [lists.sweep_ctx c, if_neg away]
    · rw [lists.sweep_eq, State.endAll_report]; rfl
    · rw [lists.sweep_eq, State.endAll_account]
    · rw [lists.sweep_eq, State.endAll_retained_of_unanswered _ unanswered]
    · refine ends.eq.trans ?_
      rw [lists.sweep_schedule, State.lines_eq fun l => (lists.sweep_sameLines l).1,
        State.meters_eq fun l => (lists.sweep_sameLines l).2]

end Sys2Proof.Machine
end

section
/-! PROOF. The uptime counter and the retries that are due (R104, R108, R109). -/

namespace Sys2Proof.Machine

/-! ## A due context handed on -/

/-- A due context made PENDING at the tail of its origin class (R44, R109), ahead of the pairing pass. -/
def State.dueJoined (s : State) (c : CtxId) : State :=
  { s with
    schedule := s.schedule.filter fun d => decide (d ≠ c)
    ctxs := s.ctxs.set c { s.ctx c with state := .pending, due := none }
    waiting := s.waiting.joinTail (s.ctx c).origin c }

/-- A due context taken out of the schedule, without a usable line (R109), ahead of its ending step. -/
def State.dueTaken (s : State) (c : CtxId) : State := (s.unschedule c).withCtx c { s.ctx c with due := none }

theorem State.dueTaken_ctx_same (s : State) (c : CtxId) : (s.dueTaken c).ctx c = { s.ctx c with due := none } :=
  State.withCtx_ctx_same _ _ _

theorem State.handOn_eq (s : State) (c : CtxId) :
    s.handOn c = if s.maskUsable (s.ctx c).mask then (s.dueJoined c).pass else (s.dueTaken c).endContext c .noLine := by
  have own : (s.dueTaken c).ctx c = { s.ctx c with due := none } := s.dueTaken_ctx_same c
  have usable : (s.dueTaken c).maskUsable ((s.dueTaken c).ctx c).mask = s.maskUsable (s.ctx c).mask := by rw [own]; rfl
  have admitted : (s.dueTaken c).admitDue c = (s.dueJoined c).pass := by
    unfold State.admitDue
    rw [own, State.dueTaken, State.withCtx_modCtx]
    rfl
  have hands : s.handOn c = if (s.dueTaken c).maskUsable ((s.dueTaken c).ctx c).mask then (s.dueTaken c).admitDue c
      else (s.dueTaken c).endContext c .noLine := rfl
  rw [hands, usable, admitted]

/-- What handing on a due context leaves: another context's wait, and the rest of the schedule (R109). -/
structure State.HandsOn (s t : State) (c : CtxId) : Prop where
  lists : t.ListsExact
  schedule : t.schedule = s.schedule.filter fun d => decide (d ≠ c)
  others : ∀ d : CtxId, d ≠ c → (s.ctx d).state = .retryWait → t.ctx d = s.ctx d
  keeps : s.Keeps t

theorem State.ListsExact.handsOn {s : State} (lists : s.ListsExact) {c : CtxId} (head : s.dueHead = some c) :
    s.HandsOn (s.handOn c) c := by
  have keeps := s.handOn_keeps c
  rw [State.handOn_eq] at keeps ⊢
  by_cases usable : s.maskUsable (s.ctx c).mask = true
  · rw [if_pos usable] at keeps ⊢
    have joined : (s.dueJoined c).ListsExact := (State.Act.due (R := fun _ _ => True) c head).listsExact lists
    have other (d : CtxId) (apart : d ≠ c) : (s.dueJoined c).ctx d = s.ctx d := State.withCtx_ctx_other s _ apart
    refine ⟨joined.pass, joined.pass_schedule, fun d apart retrying => ?_, keeps⟩
    rw [joined.pass_ctx (by rw [other d apart, retrying]; exact CtxState.noConfusion), other d apart]
  · rw [if_neg usable] at keeps ⊢
    have retrying : ((s.dueTaken c).ctx c).state = .retryWait := by rw [State.dueTaken_ctx_same]; exact lists.of_dueHead head
    refine ⟨(State.Act.dueLost (R := fun _ _ => True) c head).listsExact lists, ?_, fun d apart _ => ?_, keeps⟩
    · rw [State.endContext_schedule, if_pos retrying]
      show (s.schedule.filter _).filter _ = _
      rw [List.filter_filter]
      simp
    · exact (State.endContext_others _ c _ d apart).trans (State.withCtx_ctx_other (s.unschedule c) _ apart)

/-! ## All that are due -/

theorem State.dueLoop_done {s : State} (n : Nat) (none' : s.dueHead = none) : State.dueLoop n s = s := by
  cases n with
  | zero => rfl
  | succ n => unfold State.dueLoop; rw [none']

theorem State.dueLoop_hands {s : State} {c : CtxId} (n : Nat) (head : s.dueHead = some c) :
    State.dueLoop (n + 1) s = State.dueLoop n (s.handOn c) := by
  rw [State.dueLoop, head]

theorem State.dueHead_none {s : State} : s.dueHead = none ↔ ∀ d ∈ s.schedule.head?, s.uptime < s.dueOf d := by
  unfold State.dueHead
  cases s.schedule with
  | nil => simp
  | cons d rest => simp

theorem State.dueHead_eq {s : State} {c : CtxId} {rest : List CtxId} (schedule : s.schedule = c :: rest)
    (due : s.dueOf c ≤ s.uptime) : s.dueHead = some c := by
  unfold State.dueHead
  rw [schedule]
  exact if_pos due

theorem State.dueHead_due {s : State} {c : CtxId} (head : s.dueHead = some c) : s.dueOf c ≤ s.uptime := by
  unfold State.dueHead at head
  split at head
  · cases head
  · split at head
    · rename_i due; cases head; exact due
    · cases head

/-- A run long enough hands on all that are due (R109). -/
theorem State.ListsExact.dueLoop_no_head {n : Nat} {s : State} (lists : s.ListsExact) (fuel : s.schedule.length ≤ n) :
    (State.dueLoop n s).dueHead = none := by
  induction n generalizing s with
  | zero =>
    have empty : s.schedule = [] := List.length_eq_zero_iff.mp (Nat.le_zero.mp fuel)
    unfold State.dueLoop State.dueHead
    rw [empty]
  | succ n ih =>
    cases head : s.dueHead with
    | none => rw [State.dueLoop_done _ head]; exact head
    | some c =>
      have hands := lists.handsOn head
      have shorter : (s.handOn c).schedule.length < s.schedule.length := by
        rw [hands.schedule]
        exact List.length_filter_lt_length_iff_exists.mpr ⟨c, State.dueHead_mem head, by simp⟩
      rw [State.dueLoop_hands n head]
      exact ih hands.lists (by omega)

theorem State.ListsExact.dueLoop {s : State} (lists : s.ListsExact) (n : Nat) : (State.dueLoop n s).ListsExact :=
  State.dueLoop_induct (P := State.ListsExact) (fun _ _ head lists => (lists.handsOn head).lists) n lists

/-- The head of a schedule in due order is due first (R108). -/
theorem State.ListsExact.due_after {s : State} (lists : s.ListsExact) (none' : s.dueHead = none) {c : CtxId}
    (retrying : (s.ctx c).state = .retryWait) : s.uptime < s.dueOf c := by
  obtain ⟨-, -, schedule, -, sorted⟩ := lists
  have mem := (schedule c).mpr retrying
  have first := State.dueHead_none.mp none'
  cases q : s.schedule with
  | nil => rw [q] at mem; exact absurd mem List.not_mem_nil
  | cons d rest =>
    rw [q] at mem sorted first
    have early : s.uptime < s.dueOf d := first d rfl
    rcases List.mem_cons.mp mem with rfl | later
    · exact early
    · exact Nat.lt_of_lt_of_le early ((List.pairwise_cons.mp sorted).1 c later)

/-- A context that is not yet due is not touched (R109). -/
theorem State.ListsExact.dueLoop_ctx {s : State} (lists : s.ListsExact) (n : Nat) {c : CtxId}
    (retrying : (s.ctx c).state = .retryWait) (later : s.uptime < s.dueOf c) : (State.dueLoop n s).ctx c = s.ctx c := by
  refine (State.dueLoop_induct (P := fun u => u.ListsExact ∧ u.uptime = s.uptime ∧ u.ctx c = s.ctx c)
    (fun u d head h => ?_) n ⟨lists, rfl, rfl⟩).2.2
  obtain ⟨lists, uptime, same⟩ := h
  have hands := lists.handsOn head
  have due := State.dueHead_due head
  have apart : c ≠ d := fun e => by
    have k : u.dueOf c = s.dueOf c := State.dueOf_congr same
    rw [← e, k, uptime] at due
    omega
  exact ⟨hands.lists, hands.keeps.uptime.trans uptime, (hands.others c apart (by rw [same]; exact retrying)).trans same⟩

/-! ## One context due -/

/-- With one context due, the run is its handing on (R109). -/
theorem State.ListsExact.dueLoop_one {s : State} (lists : s.ListsExact) {c : CtxId} {rest : List CtxId}
    (schedule : s.schedule = c :: rest) (due : s.dueOf c ≤ s.uptime) (later : ∀ d ∈ rest.head?, s.uptime < s.dueOf d) :
    State.dueLoop s.schedule.length s = s.handOn c ∧ (s.schedule.filter fun d => decide (d ≠ c)) = rest := by
  have head := State.dueHead_eq schedule due
  have hands := lists.handsOn head
  obtain ⟨-, nodup, exact', -⟩ := lists
  have fresh : c ∉ rest := (List.nodup_cons.mp (schedule ▸ nodup)).1
  have left : (s.schedule.filter fun d => decide (d ≠ c)) = rest := by
    rw [schedule, List.filter_cons_of_neg (by simp)]
    exact List.filter_eq_self.mpr fun d mem => decide_eq_true fun e => fresh (e ▸ mem)
  refine ⟨?_, left⟩
  have none' : (s.handOn c).dueHead = none := by
    rw [State.dueHead_none, hands.schedule, left, hands.keeps.uptime]
    intro d first
    have mem : d ∈ rest := List.mem_of_mem_head? first
    rw [State.dueOf_congr (hands.others d (fun e => fresh (e ▸ mem))
      ((exact' d).mp (by rw [schedule]; exact List.mem_cons_of_mem _ mem)))]
    exact later d first
  rw [schedule, List.length_cons, State.dueLoop_hands _ head, State.dueLoop_done _ none']

/-- A due context without a usable line ends with NO_LINE (R109, R52). -/
theorem State.dueTaken_ends {s : State} {c : CtxId} (retrying : (s.ctx c).state = .retryWait) :
    s.EndsContext ((s.dueTaken c).endContext c .noLine) c (s.ctx c).lastOutcome .noLine
      ∧ s.SameLines ((s.dueTaken c).endContext c .noLine) ∧ ((s.dueTaken c).endContext c .noLine).waiting = s.waiting := by
  have own := s.dueTaken_ctx_same c
  have off : ((s.dueTaken c).ctx c).state ≠ .onLine := by
    rw [own]; exact fun k => CtxState.noConfusion (retrying.symm.trans k)
  obtain ⟨⟨ctx, others, booked, report, free, keeps⟩, lines⟩ := State.endContext_ends_off off .noLine
  unfold State.EndBooked at booked
  rw [own] at ctx booked report
  refine ⟨⟨ctx, (State.withCtx_others (s.unschedule c) c _).trans others, booked, report, free,
    ⟨keeps.ctl, keeps.power, keeps.intake, keeps.uptime, keeps.uptimeMs, keeps.mem,
      keeps.seed, keeps.pending⟩⟩, lines, ?_⟩
  rw [State.endContext_waiting, own]
  exact if_neg fun k => CtxState.noConfusion (retrying.symm.trans k)

/-- Settles O55: the counter rises, and the run over what is due is made in RUNNING alone. -/
theorem uptimeHandsOnDueCalls : Obligations.UptimeHandsOnDueCalls := by
  unfold Obligations.UptimeHandsOnDueCalls
  intro s active
  have ticks {t : State} (h : s.uptimeRises = t) : exec .uptimeTick s = .next t :=
    congrArg Host.Outcome.next ((if_neg (Bool.eq_false_iff.mp active)).trans h)
  let u : State := { s with uptimeMs := 0, uptime := s.uptime + 1 }
  refine ⟨fun full => ticks (if_neg (by show ¬ s.uptime < 4294967295; omega)),
    fun below stopped => ticks ((if_pos below).trans (if_neg stopped)), fun below running lists => ?_⟩
  have lists' : u.ListsExact := lists
  have rises : s.uptimeRises = State.dueLoop u.schedule.length u := (if_pos below).trans (if_pos running)
  have keeps := State.dueLoop_keeps u.schedule.length u
  have ended := lists'.dueLoop_no_head le_rfl
  refine ⟨_, ticks rises, keeps.uptime, keeps.ctl, keeps.intake, keeps.mem, fun c retrying due mem => ?_,
    fun c retrying later => lists'.dueLoop_ctx _ retrying later, fun c rest schedule due later => ?_⟩
  · have after := (lists'.dueLoop _).due_after ended retrying
    have own : (State.dueLoop u.schedule.length u).dueOf c = due := by
      unfold State.dueOf; rw [Option.mem_def.mp mem]; rfl
    rwa [own, keeps.uptime] at after
  · obtain ⟨one, left⟩ := lists'.dueLoop_one schedule (le_of_eq due) later
    have retrying : (s.ctx c).state = .retryWait := lists'.of_dueHead (State.dueHead_eq schedule (le_of_eq due))
    rw [one, State.handOn_eq]
    refine ⟨fun usable => ?_, fun unusable => ?_⟩
    · rw [if_pos (show u.maskUsable (u.ctx c).mask = true from State.maskUsable_iff.mpr usable)]
      have joined : u.dueJoined c = { s with
          uptimeMs := 0, uptime := s.uptime + 1, schedule := rest
          ctxs := s.ctxs.set c { s.ctx c with state := .pending, due := none }
          waiting := s.waiting.joinTail (s.ctx c).origin c } :=
        congrArg (fun q : List CtxId => ({ u.dueJoined c with schedule := q } : State)) left
      rw [joined]
      rfl
    · rw [if_neg fun k : u.maskUsable (u.ctx c).mask = true => unusable (State.maskUsable_iff.mp k)]
      obtain ⟨ends, lines, waiting⟩ := State.dueTaken_ends (s := u) retrying
      refine ⟨ends, ?_, waiting, lines⟩
      rw [State.endContext_schedule, State.dueTaken_ctx_same]
      refine (if_pos (show _ = _ from retrying)).trans ?_
      show (u.schedule.filter _).filter _ = _
      rw [List.filter_filter, ← left]
      simp

end Sys2Proof.Machine
end

section
/-! PROOF. The bytes of the report records (R168, R169, R173). -/

namespace Sys2Proof.Machine

/-! ## Records of 64 bytes -/

theorem pad64_length {bytes : List Byte} (short : bytes.length ≤ 64) : (pad64 bytes).length = 64 := by
  unfold pad64
  rw [List.length_append, List.length_replicate]
  omega

theorem pad64_past {bytes : List Byte} {k : Nat} (past : bytes.length ≤ k) : (pad64 bytes).getD k 0 = 0 := by
  unfold pad64
  rw [List.getD_append_right _ _ _ _ past, List.getD_eq_getElem?_getD, List.getElem?_replicate]
  split <;> rfl

theorem stampBytes_length (t : Option Stamp) : (stampBytes t).length = 8 := by cases t <;> rfl

theorem ProgressKind.tail_length (k : ProgressKind) : k.tail.length = 5 := by cases k <;> rfl

theorem UnsolicitedKind.head_length (k : UnsolicitedKind) : k.head.length = 3 := by cases k <;> rfl

theorem UnsolicitedKind.tail_length (k : UnsolicitedKind) : k.tail.length ≤ 3 := by cases k <;> simp [UnsolicitedKind.tail]

/-- Every record takes 64 bytes (R168). -/
theorem State.entryBytes_length (s : State) (e : OutboxEntry) : (s.entryBytes e).length = 64 := by
  unfold State.entryBytes
  cases e.body with
  | callEnd c =>
    dsimp only
    cases (s.ctx c).record with
    | none => rfl
    | some r => exact pad64_length (by simp [reportHead, stampBytes_length, word32, wordBytes, half16, halfBytes])
  | done d =>
    refine pad64_length ?_
    rcases d.data with _ | ⟨n, a⟩ <;> simp [reportHead, word32, wordBytes, halfBytes]
  | progress p => exact pad64_length (by simp [reportHead, ProgressKind.tail_length, halfBytes])
  | unsolicited u =>
    have := u.kind.tail_length
    refine pad64_length ?_
    simp only [List.length_append, UnsolicitedKind.head_length, reportHead, word32, wordBytes, halfBytes, List.length_cons,
      List.length_nil]
    omega

/-! ## The records field by field -/

theorem half_zero : half 0 0 = 0 := by decide

theorem word_ones : word 0xFF 0xFF 0xFF 0xFF = 0xFFFFFFFF := by decide

/-- A byte of a record (R173). -/
def byteAt (bytes : List Byte) (k : Nat) : Byte := bytes.getD k 0

section
variable (x : CallEnd) (urgent : Bool)

/-- The bytes 4 to 11 of a CALL_END. -/
theorem CallEnd.bytes_codes :
    byteAt (x.bytes urgent) 4 = x.outcome.code ∧ byteAt (x.bytes urgent) 5 = (if x.direction = .outbound then 0 else 1)
      ∧ byteAt (x.bytes urgent) 6 = (if x.origin = .urgent then 0 else 1) ∧ byteAt (x.bytes urgent) 7 = byteOrAbsent x.line
      ∧ byteAt (x.bytes urgent) 8 = byteOf x.attempts ∧ byteAt (x.bytes urgent) 9 = byteOrAbsent x.account
      ∧ byteAt (x.bytes urgent) 10 = byteOrAbsent x.tariff ∧ byteAt (x.bytes urgent) 11 = byteOf x.drops := by
  have direction : byteAt (x.bytes urgent) 5 = match x.direction with | .outbound => 0 | .inbound => 1 := rfl
  have origin : byteAt (x.bytes urgent) 6 = OrderRing.code x.origin := rfl
  refine ⟨rfl, ?_, ?_, rfl, rfl, rfl, rfl, rfl⟩
  · rw [direction]; cases x.direction <;> rfl
  · rw [origin]; cases x.origin <;> rfl

/-- The stamp of a CALL_END, absent as day 0 and second FFFFFFFFh (R169). -/
theorem CallEnd.bytes_stamp :
    halfAt (byteAt (x.bytes urgent)) 12 = (match x.stamp with | some d => d.day | none => 0)
      ∧ wordAt (byteAt (x.bytes urgent)) 16 = (match x.stamp with | some d => BitVec.ofNat 32 d.second | none => 0xFFFFFFFF)
      ∧ halfAt (byteAt (x.bytes urgent)) 14 = 0 := by
  obtain ⟨tag, outcome, direction, origin, line, attempts, account, tariff, stamp, seconds, units, charge, drops⟩ := x
  cases stamp with
  | none => exact ⟨half_zero, word_ones, half_zero⟩
  | some d => exact ⟨half_extract d.day, word_extract (BitVec.ofNat 32 d.second), half_zero⟩

/-- The counts of a CALL_END, behind the stamp. -/
theorem CallEnd.bytes_counts :
    wordAt (byteAt (x.bytes urgent)) 20 = BitVec.ofNat 32 x.connectedSeconds
      ∧ halfAt (byteAt (x.bytes urgent)) 24 = BitVec.ofNat 16 x.units
      ∧ wordAt (byteAt (x.bytes urgent)) 28 = BitVec.ofNat 32 x.charge ∧ halfAt (byteAt (x.bytes urgent)) 26 = 0 := by
  obtain ⟨tag, outcome, direction, origin, line, attempts, account, tariff, stamp, seconds, units, charge, drops⟩ := x
  cases stamp <;>
    exact ⟨word_extract (BitVec.ofNat 32 seconds), half_extract (BitVec.ofNat 16 units),
      word_extract (BitVec.ofNat 32 charge), half_zero⟩

theorem CallEnd.bytes_past {k : Nat} (past : 32 ≤ k) : byteAt (x.bytes urgent) k = 0 :=
  pad64_past (by simpa [reportHead, stampBytes_length, word32, wordBytes, half16, halfBytes] using past)

end

section
variable (x : DoneRecord) (urgent : Bool)

theorem DoneRecord.bytes_data {n : AccountId} {a : Account} (data : x.data = some (n, a)) :
    byteAt (x.bytes urgent) 6 = 1 ∧ byteAt (x.bytes urgent) 8 = byteOf n.val
      ∧ byteAt (x.bytes urgent) 9 = flagByte a.suspended ∧ byteAt (x.bytes urgent) 10 = flagByte a.limited
      ∧ byteAt (x.bytes urgent) 11 = byteOf a.active ∧ wordAt (byteAt (x.bytes urgent)) 12 = BitVec.ofNat 32 a.limit
      ∧ wordAt (byteAt (x.bytes urgent)) 16 = BitVec.ofNat 32 a.total ∧ halfAt (byteAt (x.bytes urgent)) 20 = a.completed := by
  obtain ⟨tag, kind, status, data'⟩ := x
  subst data
  exact ⟨rfl, rfl, rfl, rfl, rfl, word_extract _, word_extract _, half_extract _⟩

theorem DoneRecord.bytes_no_data (data : x.data = none) :
    byteAt (x.bytes urgent) 6 = 0 ∧ ∀ k : Nat, 8 ≤ k → byteAt (x.bytes urgent) k = 0 := by
  obtain ⟨tag, kind, status, data'⟩ := x
  subst data
  exact ⟨rfl, fun k past => pad64_past (by simpa [reportHead, halfBytes] using past)⟩

/-- The unassigned bytes of a REQUEST_DONE. -/
theorem DoneRecord.bytes_past : byteAt (x.bytes urgent) 7 = 0 ∧ ∀ k : Nat, 22 ≤ k → byteAt (x.bytes urgent) k = 0 := by
  obtain ⟨tag, kind, status, data⟩ := x
  rcases data with _ | ⟨n, a⟩
  · exact ⟨rfl, fun k past => pad64_past (by simp [reportHead, halfBytes]; omega)⟩
  · exact ⟨rfl, fun k past => pad64_past (by simpa [reportHead, halfBytes, word32, wordBytes] using past)⟩

end

/-- The subkind of a PROGRESS report. -/
theorem ProgressRecord.bytes_kind (x : ProgressRecord) (urgent : Bool) : byteAt (x.bytes urgent) 4 = x.kind.code := rfl

/-- The failure and the data of a PROGRESS report. -/
theorem ProgressRecord.bytes_tail (x : ProgressRecord) (urgent : Bool) :
    byteAt (x.bytes urgent) 7 = (match x.kind with | .attemptFailed failure _ => failure.code | _ => 0)
      ∧ wordAt (byteAt (x.bytes urgent)) 8 = (match x.kind with
        | .attemptFailed _ interval => BitVec.ofNat 32 interval
        | .limitWarning room => BitVec.ofNat 32 room
        | _ => 0) := by
  obtain ⟨tag, kind, line, attempts⟩ := x
  cases kind with
  | attemptFailed failure interval => exact ⟨rfl, word_extract _⟩
  | limitWarning room => exact ⟨rfl, word_extract _⟩
  | attemptStart | ringing | answered => exact ⟨rfl, word_extract 0⟩

theorem ProgressRecord.bytes_past (x : ProgressRecord) (urgent : Bool) {k : Nat} (past : 12 ≤ k) :
    byteAt (x.bytes urgent) k = 0 :=
  pad64_past (by simpa [reportHead, ProgressKind.tail_length, halfBytes] using past)

section
variable (x : UnsolicitedRecord) (missed : Nat) (urgent : Bool)

/-- The fixed part of an UNSOLICITED record, behind its subkind, line and ring. -/
theorem UnsolicitedRecord.bytes_fixed :
    byteAt (x.bytes missed urgent) 7 = byteOf missed ∧ halfAt (byteAt (x.bytes missed urgent)) 8 = x.stamp.day
      ∧ halfAt (byteAt (x.bytes missed urgent)) 10 = 0
      ∧ wordAt (byteAt (x.bytes missed urgent)) 12 = BitVec.ofNat 32 x.stamp.second := by
  obtain ⟨kind, stamp⟩ := x
  cases kind <;> exact ⟨rfl, half_extract stamp.day, half_zero, word_extract (BitVec.ofNat 32 stamp.second)⟩

/-- Subkind, line and ring of an UNSOLICITED record. -/
theorem UnsolicitedRecord.bytes_head :
    byteAt (x.bytes missed urgent) 4 = x.kind.head.getD 0 0 ∧ byteAt (x.bytes missed urgent) 5 = x.kind.head.getD 1 0
      ∧ byteAt (x.bytes missed urgent) 6 = x.kind.head.getD 2 0 := by
  obtain ⟨kind, stamp⟩ := x
  cases kind <;> exact ⟨rfl, rfl, rfl⟩

/-- The further content of STARTED. -/
theorem UnsolicitedRecord.bytes_started {cause : ResetCause} {status : TableStatus} {valid : Bool}
    (started : x.kind = .started cause status valid) :
    byteAt (x.bytes missed urgent) 16 = byteOf cause.code ∧ byteAt (x.bytes missed urgent) 17 = byteOf status.bits
      ∧ byteAt (x.bytes missed urgent) 18 = flagByte valid := by
  obtain ⟨kind, stamp⟩ := x
  subst started
  exact ⟨rfl, rfl, rfl⟩

theorem UnsolicitedRecord.bytes_past {k : Nat} (past : 16 + x.kind.tail.length ≤ k) : byteAt (x.bytes missed urgent) k = 0 := by
  refine pad64_past ?_
  simp only [reportHead, UnsolicitedKind.head_length, halfBytes, word32, wordBytes, List.length_append, List.length_cons,
    List.length_nil]
  omega

end

/-- The table status byte of STARTED (R170). -/
theorem TableStatus.byte_bits (t : TableStatus) :
    (byteOf t.bits).getLsbD 0 = t.prefixes ∧ (byteOf t.bits).getLsbD 1 = t.bands ∧ (byteOf t.bits).getLsbD 2 = t.accounts
      ∧ (byteOf t.bits).getLsbD 3 = t.policies ∧ (byteOf t.bits).getLsbD 4 = t.calendar
      ∧ (byteOf t.bits).extractLsb' 5 3 = 0 := by
  obtain ⟨a, b, c, d, e⟩ := t
  revert a b c d e
  decide

/-- Settles O58: the four records, field by field. -/
theorem callEndRecordLayout : Obligations.CallEndRecordLayout := by
  unfold Obligations.CallEndRecordLayout
  refine ⟨State.entryBytes_length, fun o => by cases o <;> rfl, fun x urgent => ?_, fun x urgent => ?_, fun x urgent => ?_,
    fun x missed urgent => ?_⟩
  case refine_1 =>
    obtain ⟨outcome, direction, origin, line, attempts, account, tariff, drops⟩ := x.bytes_codes urgent
    obtain ⟨day, second, gap⟩ := x.bytes_stamp urgent
    obtain ⟨seconds, units, charge, gap'⟩ := x.bytes_counts urgent
    refine ⟨rfl, rfl, half_extract x.tag, outcome, direction, origin, line.trans ?_, attempts, account.trans ?_,
      tariff.trans ?_, drops, day.trans ?_, second.trans ?_, seconds, units, charge, gap, gap', fun k => x.bytes_past urgent⟩
    · cases x.line <;> rfl
    · cases x.account <;> rfl
    · cases x.tariff <;> rfl
    · cases x.stamp <;> rfl
    · cases x.stamp <;> rfl
  case refine_2 =>
    obtain ⟨gap, past⟩ := x.bytes_past urgent
    have status : byteAt (x.bytes urgent) 5 = x.status.code := rfl
    exact ⟨rfl, rfl, half_extract x.tag, rfl, status.trans (by cases x.status <;> rfl), gap, past, x.bytes_no_data urgent,
      fun n a => x.bytes_data urgent⟩
  case refine_3 =>
    obtain ⟨failure, data⟩ := x.bytes_tail urgent
    refine ⟨rfl, rfl, half_extract x.tag, (x.bytes_kind urgent).trans ?_, rfl, rfl, failure.trans ?_, data.trans ?_,
      fun k => x.bytes_past urgent⟩ <;> cases x.kind <;> rfl
  case refine_4 =>
    obtain ⟨subkind, line, ring⟩ := x.bytes_head missed urgent
    obtain ⟨count, day, gap, second⟩ := x.bytes_fixed missed urgent
    have short := x.kind.tail_length
    refine ⟨rfl, rfl, half_zero, subkind.trans ?_, line.trans ?_, ring.trans ?_, count, day, gap, second,
      fun k past => x.bytes_past missed urgent (by omega), fun other k past => x.bytes_past missed urgent ?_,
      fun cause status valid started => ?_⟩
    · cases x.kind <;> rfl
    · cases x.kind <;> rfl
    · cases x.kind with
      | ringFault r => cases r <;> rfl
      | started | ringIn | ringGone | lineFault => rfl
    · have empty : x.kind.tail = [] := by
        cases kind : x.kind with
        | started cause status valid => exact absurd kind (other cause status valid)
        | ringIn | ringGone | lineFault | ringFault => rfl
      rw [empty]
      exact past
    · obtain ⟨causeByte, statusByte, validByte⟩ := x.bytes_started missed urgent started
      obtain ⟨prefixes, bands, accounts, policies, calendar, rest⟩ := status.byte_bits
      refine ⟨causeByte.trans (by cases cause <;> rfl), ?_⟩
      exact ⟨(congrArg (BitVec.getLsbD · 0) statusByte).trans prefixes, (congrArg (BitVec.getLsbD · 1) statusByte).trans bands,
        (congrArg (BitVec.getLsbD · 2) statusByte).trans accounts, (congrArg (BitVec.getLsbD · 3) statusByte).trans policies,
        (congrArg (BitVec.getLsbD · 4) statusByte).trans calendar,
        (congrArg (BitVec.extractLsb' 5 3) statusByte).trans rest, validByte⟩

end Sys2Proof.Machine
end

section
/-! PROOF. HALTED freezes the part (R158, R166, R167). -/

namespace Sys2Proof.Machine

/-- What no command but a reset changes in HALTED (R79, R155, R166, R167). -/
structure State.Frozen (s t : State) : Prop where
  engine : t.ctl.engine = s.ctl.engine
  error : t.ctl.error = s.ctl.error
  ctxs : t.ctxs = s.ctxs
  lists : s.SameLists t
  meters : t.meters = s.meters
  intake : t.intake = s.intake
  outbox : t.report.outbox = s.report.outbox
  producer : t.report.producer = s.report.producer
  consumer : t.report.cachedConsumer = s.report.cachedConsumer
  signal : t.report.sigPending = true → s.report.sigPending = true ∨ s.report.holdTimer ≠ .stopped
  lines : ∀ l : LineId, (t.line l).state = (s.line l).state ∧ (t.line l).held = (s.line l).held

@[refl] theorem State.Frozen.refl (s : State) : s.Frozen s :=
  ⟨rfl, rfl, rfl, ⟨rfl, rfl, rfl⟩, rfl, rfl, rfl, rfl, rfl, .inl, fun _ => ⟨rfl, rfl⟩⟩

theorem State.Frozen.of_eq {s t : State} (h : t = s) : s.Frozen t := by rw [h]

/-- A change of lines that leaves what they do and whom they hold. -/
theorem State.frozen_of_lines (s : State) (v : Vector Line 8)
    (kept : ∀ l : LineId, v[l].state = (s.line l).state ∧ v[l].held = (s.line l).held) : s.Frozen { s with lines := v } :=
  { State.Frozen.refl s with lines := kept }

/-- Supplies, clocks, retained tables and memory are not among what HALTED freezes. -/
theorem State.Frozen.of_rest {s t : State} (h : s.Frozen t) (p : Power) (r : Retained) (m : Memory) (up ms seed : Nat) :
    s.Frozen { t with power := p, retained := r, mem := m, uptime := up, uptimeMs := ms, seed := seed } :=
  ⟨h.engine, h.error, h.ctxs, h.lists, h.meters, h.intake, h.outbox, h.producer, h.consumer, h.signal, h.lines⟩

section
variable (s : State)

theorem State.modLine_frozen (l : LineId) (f : Line → Line)
    (kept : (f (s.line l)).state = (s.line l).state ∧ (f (s.line l)).held = (s.line l).held) : s.Frozen (s.modLine l f) := by
  refine { State.Frozen.refl s with lines := fun k => ?_ }
  by_cases same : k = l
  · rw [same, State.modLine_line_same]; exact kept
  · rw [State.modLine_line_other _ _ _ _ same]; exact ⟨rfl, rfl⟩

theorem State.registerWrite_frozen {effect : State → State} (h : s.Frozen (effect s)) : s.Frozen (s.registerWrite effect) := by
  rcases s.registerWrite_cases effect with ⟨-, k⟩ | ⟨-, k⟩ <;> rw [k]
  exact h

/-- A register write that comes with the host's stores (log 11). -/
theorem State.hostStores_frozen (stores : HostStores) {effect : State → State}
    (h : effect (s.hostStores stores) = s.hostStores stores) : s.Frozen ((s.hostStores stores).registerWrite effect) := by
  have stored : s.Frozen (s.hostStores stores) := (State.Frozen.refl s).of_rest _ _ _ _ _ _
  rcases (s.hostStores stores).registerWrite_cases effect with ⟨-, k⟩ | ⟨-, k⟩ <;> rw [k]
  · exact stored
  · rw [h]; exact stored

/-- The end of a reset lets the lines qualify their inputs, no more (R59, R92). -/
theorem State.endReset_frozen (p : Power) : s.Frozen (State.endReset { s with power := p }) := by
  obtain ⟨same, lines⟩ := State.endReset_spec { s with power := p }
  rw [same]
  refine (s.frozen_of_lines _ fun l => ?_).of_rest _ _ _ _ _ _
  show ((State.endReset { s with power := p }).line l).state = _ ∧ ((State.endReset { s with power := p }).line l).held = _
  rw [lines]
  split <;> exact ⟨rfl, rfl⟩

theorem State.powerStable_frozen : s.Frozen s.powerStable := by
  unfold State.powerStable
  split
  · exact s.endReset_frozen _
  · rfl

theorem State.resetnRises_frozen : s.Frozen s.resetnRises := by
  unfold State.resetnRises
  split
  · exact s.endReset_frozen _
  · rfl

theorem State.batteryLost_frozen : s.Frozen s.batteryLost := by
  unfold State.batteryLost
  dsimp only
  split <;> exact (State.Frozen.refl s).of_rest _ _ _ _ _ _

theorem State.calendarAdvances_frozen : s.Frozen s.calendarAdvances := by
  unfold State.calendarAdvances
  split
  · exact (State.Frozen.refl s).of_rest _ _ _ _ _ _
  · rfl

/-- The acknowledge clears SIG in HALTED, and nothing sets it again (R155). -/
theorem State.acknowledge_frozen : s.Frozen (s.modReport fun r => r.acknowledge true) := by
  cases pending : s.report.sigPending with
  | false => exact .of_eq (congrArg (fun r => { s with report := r }) (ReportWriter.acknowledge_of_clear true pending))
  | true =>
    show s.Frozen { s with report := s.report.acknowledge true }
    rw [ReportWriter.acknowledge_clears pending (.inr rfl)]
    exact { State.Frozen.refl s with signal := fun _ => .inl pending }

/-- The hold timer runs out where it was running (R153). -/
theorem State.holdOut_frozen : s.Frozen (s.modReport ReportWriter.holdOut) := by
  show s.Frozen { s with report := s.report.holdOut }
  cases timer : s.report.holdTimer with
  | stopped | expired => exact .of_eq (by simp [ReportWriter.holdOut, timer])
  | running left =>
    rw [ReportWriter.holdOut_of_running timer]
    refine { State.Frozen.refl s with outbox := ?_, producer := ?_, consumer := ?_, signal := fun _ => .inr (by simp [timer]) } <;>
      exact (apply_ite _ _ _ _).trans (ite_self _)

end

section
variable {s : State} (halted : s.ctl.engine = .halted)
include halted

/-- No happening arises at a line in HALTED (R79). -/
theorem State.atLine_of_halted (happening : State → State) : s.atLine happening = s :=
  if_neg (by simp [State.linesRun, halted])

/-- No record is taken in HALTED (R32). -/
theorem State.takeFrom_of_halted (r : OrderRing) (bus : TakeBus) (need : Need) (cells : List (Nat × Byte))
    (act : State → State) : s.takeFrom r bus need cells act = s :=
  State.takeFrom_of_not_running (by rw [halted]; decide) r bus need cells act

/-- Nothing is posted in HALTED (R155). -/
theorem State.takePost_of_halted (bus : PostBus) : s.takePost bus = s := by
  have stops : s.mayPost = false := by simp [State.mayPost, halted, EngineState.posts]
  unfold State.takePost
  rw [stops]
  cases s.report.outbox <;> rfl

theorem State.takeReportBit_of_halted (e : Bool) : s.takeReportBit e = s :=
  State.takeReportBit_of_not_acts e (by rw [halted]; simp)

theorem State.takeOrderPost_of_halted (r : OrderRing) (e : Bool) : s.takeOrderPost r e = s :=
  State.takeOrderPost_of_idle e (.inl (by rw [halted]; decide))

theorem State.uptimeRises_frozen : s.Frozen s.uptimeRises := by
  unfold State.uptimeRises
  dsimp only
  rw [if_neg (show ¬s.ctl.engine = .running by rw [halted]; decide)]
  split <;> exact (State.Frozen.refl s).of_rest _ _ _ _ _ _

theorem State.checkDone_of_halted : s.checkDone = s := if_neg fun k => absurd (halted.symm.trans k.1) (by decide)

/-- Every command but a reset, by what it acts through. -/
theorem exec_frozen (i : Instr) (soft : i ≠ .reset) (pin : i ≠ .resetnAssert) (power : ∀ vdd, i ≠ .powerOnReset vdd) :
    ∃ t : State, exec i s = .next t ∧ s.Frozen t := by
  cases i
  case reset => exact absurd rfl soft
  case resetnAssert => exact absurd rfl pin
  case powerOnReset vdd => exact absurd rfl (power vdd)
  case start stores first bus =>
    exact ⟨_, rfl, s.hostStores_frozen stores (State.takes_of_halted (s := s.hostStores stores) halted first bus).1⟩
  case quiesce => exact ⟨_, rfl, s.registerWrite_frozen (.of_eq (State.takes_of_halted halted .urgent .ok).2.1)⟩
  case abort => exact ⟨_, rfl, s.registerWrite_frozen (.of_eq (State.takes_of_halted halted .urgent .ok).2.2.1)⟩
  case badCommand => exact ⟨_, rfl, s.registerWrite_frozen (.of_eq (State.takes_of_halted halted .urgent .ok).2.2.2)⟩
  case orderRingPost stores r e =>
    exact ⟨_, rfl, s.hostStores_frozen stores (State.takeOrderPost_of_halted (s := s.hostStores stores) halted r e)⟩
  case reportPostBit stores e =>
    exact ⟨_, rfl, s.hostStores_frozen stores (State.takeReportBit_of_halted (s := s.hostStores stores) halted e)⟩
  case signalAcknowledge =>
    refine ⟨_, rfl, s.registerWrite_frozen ?_⟩
    rw [decide_eq_true halted]
    exact s.acknowledge_frozen
  case setupAddrWrite => exact ⟨_, rfl, s.registerWrite_frozen { State.Frozen.refl s with }⟩
  case readOnlyRegisterWrite => exact ⟨_, rfl, .refl s⟩
  case powerOnResetEnd => exact ⟨_, rfl, s.powerStable_frozen⟩
  case resetnRelease => exact ⟨_, rfl, s.resetnRises_frozen⟩
  case retainedCheckDone => exact ⟨_, rfl, .of_eq (State.checkDone_of_halted halted)⟩
  case vbatLoss => exact ⟨_, rfl, s.batteryLost_frozen⟩
  case reportPost bus => exact ⟨_, rfl, .of_eq (State.takePost_of_halted halted bus)⟩
  case holdTimerExpiry => exact ⟨_, rfl, s.holdOut_frozen⟩
  case calendarAdvance => exact ⟨_, rfl, s.calendarAdvances_frozen⟩
  case uptimeTick =>
    refine ⟨_, rfl, ?_⟩
    split
    · rfl
    · exact State.uptimeRises_frozen halted
  case loopSenseChange l a b => exact ⟨_, rfl, s.modLine_frozen l _ ⟨rfl, rfl⟩⟩
  case toneEnergyChange l present => exact ⟨_, rfl, s.modLine_frozen l _ ⟨rfl, rfl⟩⟩
  case ringDetectChange l active => exact ⟨_, rfl, s.modLine_frozen l _ ⟨rfl, rfl⟩⟩
  case loopPatternQualified | toneEnergyQualified | qualifiedRing | ringLevelQuiet | loopTimerExpiry | dialToneTimerExpiry
    | digitTimerExpiry | pauseTimerExpiry | answerTimerExpiry | maxDurationTimerExpiry | farClearTimerExpiry
    | clearGuardTimerExpiry | ringGapTimerExpiry | dialToneMark | offPeriodOverrun | classReport | unitStart =>
    exact ⟨_, rfl, .of_eq (State.atLine_of_halted halted _)⟩
  case placeCall | accept | cancel | release | setLine | loadPrefix | loadBand | setPolicy | accountSetLimit
    | accountClearTotal | accountSuspend | accountResume | accountRead | accountInvalidOperation | setClock
    | unknownRequestKind =>
    exact ⟨_, rfl, .of_eq (State.takeFrom_of_halted halted _ _ _ _ _)⟩

end

/-- Settles O14: what a command can act through in HALTED changes none of it. -/
theorem haltedStaysFrozen : Obligations.HaltedStaysFrozen := by
  unfold Obligations.HaltedStaysFrozen
  intro i s halted soft pin power
  obtain ⟨t, runs, frozen⟩ := exec_frozen halted i soft pin power
  exact ⟨t, runs, frozen.engine.trans halted, frozen.error, frozen.ctxs, frozen.lists, frozen.meters, frozen.intake,
    frozen.outbox, frozen.producer, frozen.consumer, frozen.signal, frozen.lines⟩

end Sys2Proof.Machine
end

section
/-! PROOF. Raw inputs, and the part left to itself (R59, R60, R70, R92, log 1). -/

namespace Sys2Proof.Machine

/-! ## Raw inputs -/

/-- The qualify time in force (R59). -/
theorem Line.qualifyTime_eq (ln : Line) : ln.qualifyTime
    = if ln.state.offHook = true ∨ ln.state = .clearing then ln.working.qualify else ln.stored.qualify := by
  unfold Line.qualifyTime
  simp only [Bool.or_eq_true, decide_eq_true_eq]

section
variable (s : State) (l : LineId)

theorem exec_loopSenseChange (a b : Bool) :
    exec (.loopSenseChange l a b) s = .next (s.withLine l ((s.line l).senseChange a b s.linesRun)) := rfl

theorem exec_toneEnergyChange (a : Bool) :
    exec (.toneEnergyChange l a) s = .next (s.withLine l ((s.line l).toneChange a s.linesRun)) := rfl

theorem exec_ringDetectChange (a : Bool) :
    exec (.ringDetectChange l a) s = .next (s.withLine l ((s.line l).ringChange a s.linesRun)) := rfl

end

/-! ## One millisecond -/

/-- The connected milliseconds of a context one on (R70). -/
def Context.oneMsOn (x : Context) : Context := { x with connectedMs := min (x.connectedMs + 1) 4294967295 }

/-- Line `l` counts the connected milliseconds of context `c` (R70). -/
def State.Counts (s : State) (l : LineId) (c : CtxId) : Prop :=
  (s.line l).held = some c ∧ (s.line l).state ∈ [.connected, .connectedIn]

section
variable {s : State} {l : LineId} {c : CtxId}

theorem State.countConnected_of_counts (counts : s.Counts l c) :
    s.countConnected l = s.modCtx c Context.oneMsOn := by
  obtain ⟨held, connected⟩ := counts
  unfold State.countConnected
  rw [if_pos (by simpa using connected), held]
  rfl

theorem State.countConnected_ctx_other (counts : ¬ s.Counts l c) : (s.countConnected l).ctx c = s.ctx c := by
  unfold State.countConnected
  split
  · rename_i connected
    split
    · rename_i d held
      refine State.modCtx_ctx_other _ _ _ _ fun same => counts ⟨by rw [same]; exact held, by simpa using connected⟩
    · rfl
  · rfl

/-- The count touches contexts alone. -/
theorem State.countConnected_eq (s : State) (l : LineId) :
    s.countConnected l = { s with ctxs := (s.countConnected l).ctxs } := by
  unfold State.countConnected
  split
  · split <;> rfl
  · rfl

end

theorem State.countAll_eq (ls : List LineId) (s : State) :
    ls.foldl State.countConnected s = { s with ctxs := (ls.foldl State.countConnected s).ctxs } := by
  induction ls generalizing s with
  | nil => rfl
  | cons l rest ih =>
    rw [List.foldl_cons, ih, s.countConnected_eq l]

theorem State.countAll_line (ls : List LineId) (s : State) (l : LineId) :
    (ls.foldl State.countConnected s).line l = s.line l := by
  rw [s.countAll_eq ls]
  rfl

/-- The lines do not change in the count, so neither does what a line counts. -/
theorem State.countAll_counts (ls : List LineId) (s : State) (l : LineId) (c : CtxId) :
    (ls.foldl State.countConnected s).Counts l c ↔ s.Counts l c := by
  rw [s.countAll_eq ls]
  exact Iff.rfl

theorem State.countAll_ctx_of_none {c : CtxId} (ls : List LineId) (s : State) (none : ∀ l ∈ ls, ¬ s.Counts l c) :
    (ls.foldl State.countConnected s).ctx c = s.ctx c := by
  induction ls generalizing s with
  | nil => rfl
  | cons l rest ih =>
    have rest_none : ∀ k ∈ rest, ¬ (s.countConnected l).Counts k c := fun k mem counts =>
      none k (List.mem_cons_of_mem _ mem) ((State.countAll_counts [l] s k c).mp counts)
    rw [List.foldl_cons, ih _ rest_none]
    exact State.countConnected_ctx_other (none l List.mem_cons_self)

/-- A context that one line alone is connected for counts one millisecond. -/
theorem State.countAll_ctx_of_one {l : LineId} {c : CtxId} {ls : List LineId} (s : State) (nodup : ls.Nodup) (mem : l ∈ ls)
    (counts : s.Counts l c) (alone : ∀ k, s.Counts k c → k = l) :
    (ls.foldl State.countConnected s).ctx c = (s.ctx c).oneMsOn := by
  obtain ⟨before, behind, rfl⟩ := List.append_of_mem mem
  obtain ⟨-, nodupTail, apart⟩ := List.nodup_append.mp nodup
  have notBefore : ∀ k ∈ before, ¬ s.Counts k c := fun k k_mem k_counts => apart k k_mem l List.mem_cons_self (alone k k_counts)
  have notBehind : ∀ k ∈ behind, ¬ s.Counts k c := fun k k_mem k_counts =>
    (List.nodup_cons.mp nodupTail).1 (alone k k_counts ▸ k_mem)
  have reached := (State.countAll_counts before s l c).mpr counts
  rw [List.foldl_append, List.foldl_cons, State.countAll_ctx_of_none behind, State.countConnected_of_counts reached,
    State.modCtx_ctx_same, State.countAll_ctx_of_none before s notBefore]
  intro k k_mem k_counts
  exact notBehind k k_mem ((State.countAll_counts (before ++ [l]) s k c).mp (by rwa [List.foldl_append]))

/-- On the invariants each context has one line at most (R56). -/
theorem State.LinesExact.counts_alone {s : State} (exact : s.LinesExact) (active : s.ctl.engine ≠ .halted) {k l : LineId}
    {c : CtxId} (first : s.Counts k c) (second : s.Counts l c) : k = l := by
  obtain ⟨-, holder, -, -⟩ := exact active
  exact Option.some.inj ((holder k c first.1).2.symm.trans (holder l c second.1).2)

/-- The heads considered leave the order rings alone changed (R31). -/
theorem State.intakeLooks_intake (s : State) : ∃ y, s.intakeLooks = { s with intake := y } := by
  unfold State.intakeLooks
  split
  · exact ⟨_, rfl⟩
  · exact ⟨s.intake, rfl⟩

/-- The classifier's period one millisecond on, where it is enabled (R83). -/
theorem Classifier.tick_eq (k : Classifier) : k.tick
    = { k with elapsed := if k.enabled then min (k.elapsed + 1) 65535 else k.elapsed } := by
  unfold Classifier.tick
  split <;> rfl

theorem Line.tick_eq (ln : Line) : ln.tick = { ln.tick with classifier := { ln.classifier with
    elapsed := if ln.classifier.enabled then min (ln.classifier.elapsed + 1) 65535 else ln.classifier.elapsed } } :=
  congrArg (fun k => { ln.tick with classifier := k }) ln.classifier.tick_eq

theorem State.tick_counts (s : State) (l : LineId) (c : CtxId) :
    ({ s with lines := s.lines.map Line.tick } : State).Counts l c ↔ s.Counts l c := by
  unfold State.Counts
  rw [State.map_lines_line]
  rfl

theorem State.tickLines_of_running {s : State} (run : s.LinesRun) :
    s.tickLines = allLines.foldl State.countConnected { s with lines := s.lines.map Line.tick } :=
  if_pos (State.linesRun_iff.mpr run)

theorem State.tickLines_of_stopped {s : State} (stopped : ¬ s.LinesRun) : s.tickLines = s :=
  if_neg fun k => stopped (State.linesRun_iff.mp k)

/-- A millisecond at the lines touches lines and contexts alone. -/
theorem State.tickLines_eq (s : State) : s.tickLines = { s with lines := s.tickLines.lines, ctxs := s.tickLines.ctxs } := by
  by_cases run : s.LinesRun
  · rw [State.tickLines_of_running run]
    generalize allLines = ls
    rw [State.countAll_eq]
  · rw [State.tickLines_of_stopped run]

theorem State.passMs_line {s : State} (run : s.LinesRun) (l : LineId) : s.passMs.line l = (s.line l).tick := by
  show s.tickLines.line l = _
  rw [State.tickLines_of_running run, State.countAll_line, State.map_lines_line]

theorem State.passMs_ctx_of_counts {s : State} (run : s.LinesRun) (exact : s.LinesExact) {l : LineId} {c : CtxId}
    (counts : s.Counts l c) : s.passMs.ctx c = (s.ctx c).oneMsOn := by
  show s.tickLines.ctx c = _
  rw [State.tickLines_of_running run]
  exact State.countAll_ctx_of_one _ allLines_nodup (mem_allLines l) ((s.tick_counts l c).mpr counts)
    fun k first => exact.counts_alone run.2 ((s.tick_counts k c).mp first) counts

theorem State.passMs_ctx_of_none {s : State} (run : s.LinesRun) {c : CtxId} (none : ∀ l, ¬ s.Counts l c) :
    s.passMs.ctx c = s.ctx c := by
  show s.tickLines.ctx c = _
  rw [State.tickLines_of_running run]
  exact State.countAll_ctx_of_none allLines _ fun l _ counts => none l ((s.tick_counts l c).mp counts)

theorem State.passMs_of_stopped {s : State} (stopped : ¬ s.LinesRun) :
    (∀ l, s.passMs.line l = s.line l) ∧ ∀ c, s.passMs.ctx c = s.ctx c := by
  have still := State.tickLines_of_stopped stopped
  exact ⟨fun l => show s.tickLines.line l = _ by rw [still], fun c => show s.tickLines.ctx c = _ by rw [still]⟩

/-- What a millisecond does beside the lines and the contexts (R104, R123, R153, R163). -/
theorem State.passMs_eq (s : State) : s.passMs = { s with
    lines := s.passMs.lines, ctxs := s.passMs.ctxs, uptimeMs := if s.inReset then 0 else s.uptimeMs + 1
    report := { s.report with holdTimer := s.report.holdTimer.tick }
    power := { s.power with stableLeft := tickTimer s.power.stableLeft }
    retained := if s.calendarPowered then
        { s.retained with calendar := { s.retained.calendar with ms := s.retained.calendar.ms + 1 } }
      else s.retained } := by
  have passed : ∀ (v : Vector Line 8) (x : Vector Context 48) (t : State), t = { s with lines := v, ctxs := x } →
      t.tickClocks = { s.tickClocks with lines := v, ctxs := x } := fun v x t same => by rw [same]; rfl
  exact passed _ _ _ s.tickLines_eq

/-- Settles O42: the inputs by their retiming, the empty queue by what is due. -/
theorem rawInputsAreTimed : Obligations.RawInputsAreTimed := by
  unfold Obligations.RawInputsAreTimed
  refine ⟨⟨rfl, rfl, rfl, rfl⟩, fun l a b s => ⟨fun run => ?_, fun stopped => ?_⟩, fun s empty => ?_⟩
  · rw [exec_loopSenseChange, exec_toneEnergyChange, exec_ringDetectChange, State.linesRun_iff.mpr run]
    rw [← Line.qualifyTime_eq]
    exact ⟨rfl, rfl, rfl⟩
  · rw [exec_loopSenseChange, exec_toneEnergyChange, exec_ringDetectChange,
      Bool.eq_false_iff.mpr fun k => stopped (State.linesRun_iff.mp k)]
    exact ⟨rfl, rfl, rfl⟩
  · rw [step_of_idle empty]
    refine ⟨fun i _ due => State.idle_of_one_due due, fun due => State.idle_of_several_due due, fun due linesExact => ?_⟩
    rw [State.idle_of_nothing_due due]
    obtain ⟨intake, looks⟩ : ∃ y, s.intakeLooks = { s with intake := y } := s.intakeLooks_intake
    rw [looks]
    refine ⟨_, rfl, fun run => ⟨fun l => ?_, fun c => ⟨fun ⟨l, held, connected⟩ => ?_, fun none => ?_⟩⟩,
      State.passMs_of_stopped (s := { s with intake := intake }), State.passMs_eq _⟩
    · exact (State.passMs_line (s := { s with intake := intake }) run l).trans (s.line l).tick_eq
    · exact State.passMs_ctx_of_counts (s := { s with intake := intake }) run linesExact ⟨held, connected⟩
    · exact State.passMs_ctx_of_none (s := { s with intake := intake }) run fun l counts => none l counts.1 counts.2

end Sys2Proof.Machine
end
